-- ==== Sys2Proof/Word.lean ====
section
/-! DEFINITION. Word and bit-field names used everywhere: byte, line, and the plainest field readers. -/
namespace Sys2Proof

/-- One byte. -/
abbrev Byte := BitVec 8

/-- The data of one 128-byte line: byte `b` occupies bits `[8b+7:8b]` (R44). -/
abbrev LineBits := BitVec 1024

/-- The field of `w` bits of `x` whose lowest bit is `lo`. -/
abbrev fld {n : Nat} (x : BitVec n) (lo w : Nat) : BitVec w := x.extractLsb' lo w

/-- The field as a natural number. -/
abbrev fldN {n : Nat} (x : BitVec n) (lo w : Nat) : Nat := (x.extractLsb' lo w).toNat

/-- Bit `i` of `x`. -/
abbrev bitAt {n : Nat} (x : BitVec n) (i : Nat) : Bool := x.getLsbD i

end Sys2Proof
end

