-- ==== Sys2Proof/Syntax.lean ====
section
/-! DEFINITION. The commands of the block: one constructor for each row of spec/opcode_table.json, with its operands. -/
namespace Sys2Proof

/-- A lane (message class) of the KY port (R32). -/
inductive Lane where
  | io | rsp | dat | snp | gth | req
  deriving DecidableEq, Repr

/-- The three wire-sensed event sources (R367, R368). -/
inductive Wire where
  | tickLost | mpAlert | bor
  deriving DecidableEq, Repr

/-- The targets of the event unit (R369). -/
inductive Target where
  | lehr | host0 | host1 | host2 | host3
  deriving DecidableEq, Repr

/-- A bank of the event unit: NORMAL or FAST of a target, or the LEHR target's private bank (R369). -/
inductive Bank where
  | normal (t : Target)
  | fast (t : Target)
  | priv
  deriving DecidableEq, Repr

/-- The commands. A window row (SYNC_SIGNAL, EVT_CLAIM, MBX_CMD_WRITE, REGISTER_WRITE and so on) acts on the oldest
accepted window access that has not acted, so it has no operand of its own; a mailbox command names its channel. -/
inductive Instr where
  /-- REQ_FLIT_ARRIVAL (R305). A REQ flit arrives on ky_req_in. It enters the request queue, is refused with QUOTA, or waits without a credit. -/
  | reqFlitArrival (flit : BitVec 144)
  /-- DAT_FLIT_ARRIVAL (R180). A DAT flit arrives. WDATA or OPERAND is paired with its request, SNP_DATA is matched to its home transaction, and any other flit is discarded. -/
  | datFlitArrival (flit : BitVec 1224)
  /-- RSP_FLIT_ARRIVAL (R180). An RSP flit arrives and is matched as a snoop answer, a COMP_ACK, or an answer to a request the slice sent. -/
  | rspFlitArrival (flit : BitVec 72)
  /-- GTH_FLIT_ARRIVAL (R95). A CONTRIBUTE flit arrives. It takes an ingress entry and a readout entry, is taken directly in its slot, or is refused with GTH_BUSY. -/
  | gthFlitArrival (flit : BitVec 1296)
  /-- IO_FLIT_ARRIVAL (R46). An IO flit arrives. It enters the IO queue, or is discarded with IO_PROTOCOL or IO_PARITY. -/
  | ioFlitArrival (flit : BitVec 720)
  /-- CREDIT_RETURN (R33). The router stop returns one credit for an outbound channel, up to the 63-credit counter limit. -/
  | creditReturn (ch : Lane)
  /-- SLOT_DECIDE (R97). Each clk the Stake entry and the arbitration tiers decide which request, or which background unit, takes the slot. -/
  | slotDecide
  /-- ARRAY_ACCESS_START (R77). A waiting array access starts on its bank pair, in rank order, and its request's later stages move by the wait. -/
  | arrayAccessStart (pair : BitVec 5)
  /-- RESPONSE_SEND (R108). The first response flit of an accepted request leaves at its offset, or in the first clk with an outbound credit. -/
  | responseSend (ch : Lane)
  /-- SNOOP_SEND (R176). A transaction's snoops leave one per clk on ky_snp_out, as credits allow. -/
  | snoopSend
  /-- EVICTION_BUFFER_ENTRY (R121). A dirty victim, a flushed line or a NO_ALLOC line enters a free eviction-buffer entry. -/
  | evictionBufferEntry
  /-- RETRY_TRACKER_EXPIRY (R190). A retry-tracker entry with no matching request by the 4th frame boundary after its last refusal is freed. -/
  | retryTrackerExpiry (entry : Nat)
  /-- COH_TICKET_LAPSE (R193). The head ticket is not used by the 4th frame boundary. It is removed, its reservations are released and the event is raised. -/
  | cohTicketLapse
  /-- SNOOP_TIMEOUT (R204). A snoop unanswered for T_SNP clk declares the coherent domain dead. -/
  | snoopTimeout (txn : BitVec 8)
  /-- COMP_ACK_TIMEOUT (R204). A COMP_ACK missing for T_SNP clk declares the coherent domain dead. -/
  | compAckTimeout (txn : BitVec 8)
  /-- DOMAIN_DRAIN_END (R206). The drain ends when the last drain response has left, or 4,096 clk after d, and the slice fences. -/
  | domainDrainEnd
  /-- READOUT_WRITE (R238). The readout unit issues a closed entry's result, status or forward writes in close order, no earlier than c37. -/
  | readoutWrite
  /-- INTERNAL_SIGNAL (R239). Once an entry's writes have completed, it signals its sync object with an increment of 1, in close order. -/
  | internalSignal
  /-- RETRY_RESEND (R272). A self-raised request, forward, image access or notify that received RETRY is sent again 32 clk later. -/
  | retryResend
  /-- SYNC_SIGNAL (R277). A window write of 8 B adds an increment to COUNTER, and the firing check follows. -/
  | syncSignal
  /-- SYNC_RESET (R277). A window write of 4 B at 8m clears COUNTER, THR, ARMED and PEND. -/
  | syncReset
  /-- SYNC_ARM (R277). A window write of 4 B at 8m + 4 disarms the object, or sets THR and arms it. -/
  | syncArm
  /-- NOTIFY_ENQUEUE (R281). The lowest-numbered object with PEND = 1 takes a free notify-queue entry. -/
  | notifyEnqueue
  /-- NOTIFY_SEND (R280). A queued notify leaves as an IO write, a memory write or a memory add. -/
  | notifySend
  /-- MP_READ_ISSUE (R311). With budget available, choose_read picks the next memory read and presents it until it transfers. -/
  | mpReadIssue (ready : Bool)
  /-- MP_READ_BEAT (R48). A read data beat arrives. Poison and errors are applied, and a fill forwards its data. -/
  | mpReadBeat (tag : BitVec 9) (beat : Bool) (data : BitVec 512) (par : BitVec 64) (poison : BitVec 4) (err : Bool)
  /-- MP_WRITE_ISSUE (R310). The next eligible eviction-buffer line is written to memory as two beats. -/
  | mpWriteIssue (ready0 ready1 : Bool)
  /-- MP_WRITE_COMPLETE (R49). mp_wr_cmp_valid returns a write tag, and the eviction-buffer entry frees. -/
  | mpWriteComplete (tag : BitVec 6)
  /-- MP_THROTTLE_FILTER (R51). A new mp_throttle level, sampled for 8 consecutive clk, becomes the filtered level. -/
  | mpThrottleFilter (level : BitVec 2)
  /-- WIRE_EVENT_FILTER (R368). A wire-sensed source is stable for FILT + 1 clk, and its rising output is one occurrence. -/
  | wireEventFilter (wire : Wire) (level : Bool)
  /-- TICK_TAKEN (R87). A tick is taken from tick_in and aligns frame clk 0, either on time or as a slip. -/
  | tickTaken
  /-- TICK_LOST (R88). FRAME_CLKS + 64 clk pass without a tick. The status bit is set and the counter runs free. -/
  | tickLost
  /-- FRAME_BOUNDARY (R89). The frame counter wraps. gtime is latched, a switch is applied, pointers are reset, the throttle is applied and snapshots are requested. -/
  | frameBoundary
  /-- PMC_SLOT_REPORT (R434). Eight clk after a boundary, the frame's slot totals are written to the PMC_SLOT registers. -/
  | pmcSlotReport
  /-- VERIFY_READ (R382). After a write-back or rewrite commits, the codeword is read again at background rank. -/
  | verifyRead
  /-- TRACE_TRANSFER (R60). A queued trace record transfers on the trace port when trc_ready is 1. -/
  | traceTransfer (ready : Bool)
  /-- EVT_DELIVERY (R370). An enabled, unsignalled bank with a winner sends its interrupt delivery and becomes signalled. -/
  | evtDelivery (bank : Bank)
  /-- EVT_CLAIM (R371). A read of EVT_CLAIM claims the bank's winner, returns 0x3FF, or returns 0. -/
  | evtClaim
  /-- EVT_COMPLETE (R372). A write of an ID clears its active bit when this bank is its claimant. -/
  | evtComplete
  /-- EVT_PEND_SET (R374). Each 1 written is one software occurrence of its source, with INFO 0. -/
  | evtPendSet
  /-- EVT_PEND_CLR (R374). Each 1 written clears the source's pending bit, OCC and AGE. -/
  | evtPendClr
  /-- EVT_MASK_SET (R374). Each 1 written masks its source. -/
  | evtMaskSet
  /-- EVT_MASK_CLR (R374). Each 1 written unmasks its source. -/
  | evtMaskClr
  /-- MBX_CMD_WRITE (R327). A write to MBX_CMD takes effect, or is discarded with WR_LOST while STATE is RUNNING. -/
  | mbxCmdWrite
  /-- MBX_DOORBELL (R327). A doorbell write posts a command with its SEQ, or sets OVERRUN. -/
  | mbxDoorbell
  /-- MBX_EPOCH_WRITE (R331). A sender writes HOST_EPOCH to mark a new life. -/
  | mbxEpochWrite
  /-- COMMAND_TAKE (R329). Firmware takes a POSTED command and applies checks 1 to 8 in order. -/
  | commandTake
  /-- CRC_REREAD (R330). 2,500 clk after a failed check 1, firmware re-reads the buffer, and after the third failure completes with TORN_COMMAND. -/
  | crcReread (ch : BitVec 2)
  /-- SLICE_INFO (R347). Returns identity, state, configuration and walk progress. -/
  | sliceInfo (ch : BitVec 2)
  /-- SLICE_START (R339). Sets AGENTS and the snoop timeout, returns credits and enters RUNNING. -/
  | sliceStart (ch : BitVec 2)
  /-- SLICE_QUIESCE (R340). Enters QUIESCING and waits for the slice to empty. -/
  | sliceQuiesce (ch : BitVec 2)
  /-- QUIESCE_DONE (R340). In the first clk in which every queue and table is empty, with no walk and no PEND, the quiesce completes and the state becomes QUIESCED. -/
  | quiesceDone
  /-- SLICE_FENCE (R343). Writes OK and fences the slice under R21. -/
  | sliceFence (ch : BitVec 2)
  /-- SLICE_RESET (R343). Writes OK and raises a cold, warm or block reset 2 us later. -/
  | sliceReset (ch : BitVec 2)
  /-- INTERLEAVE_SET (R341). Writes staging map entries, and commits the map and computes k when COMMIT is set. -/
  | interleaveSet (ch : BitVec 2)
  /-- PART_SET (R342). Changes the cache-way set, group entries and requester table, walking any withdrawn ways. -/
  | partSet (ch : BitVec 2)
  /-- PIN_BIND (R143). Binds a region into withdrawn ways and fills its lines by a background walk. -/
  | pinBind (ch : BitVec 2)
  /-- PIN_UNBIND (R150). Walks a region, writing back dirty backed lines and clearing its tag entries. -/
  | pinUnbind (ch : BitVec 2)
  /-- APERTURE_SET (R156). Stops aperture acceptance and waits for accepted aperture accesses to respond. -/
  | apertureSet (ch : BitVec 2)
  /-- APERTURE_APPLY (R156). Once the accepted aperture accesses have responded, the new aperture setting applies and BUSY clears. -/
  | apertureApply
  /-- STAKE_LOAD (R102). Writes a run of entries into the inactive Stake copy. -/
  | stakeLoad (ch : BitVec 2)
  /-- STAKE_SWITCH (R103). Checks the inactive copy and arms a switch at SWITCH_GTIME. -/
  | stakeSwitch (ch : BitVec 2)
  /-- FRAME_SET (R86). Changes FRAME_CLKS from the next frame boundary. -/
  | frameSet (ch : BitVec 2)
  /-- QOS_ADMIT (R313). Admits new parameters for one class after the slots, memory and queue checks. -/
  | qosAdmit (ch : BitVec 2)
  /-- QOS_RELEASE (R313). Restores a class's default parameters. -/
  | qosRelease (ch : BitVec 2)
  /-- GATHER_REGION (R212). Checks a gather template for a bound TYPE 2 region. -/
  | gatherRegion (ch : BitVec 2)
  /-- TEMPLATE_APPLY (R212). The template takes effect in a clk in which no contribution to the region is between ACC and HDR. -/
  | templateApply
  /-- GATHER_SAVE (R258). Copies contexts and their metadata to an image, writes the descriptor, and optionally clears the contexts. -/
  | gatherSave (ch : BitVec 2)
  /-- GATHER_RESTORE (R258). Writes contexts and their metadata back from a checked image. -/
  | gatherRestore (ch : BitVec 2)
  /-- GATHER_DRAIN (R258). Writes every context line of a region as zero. -/
  | gatherDrain (ch : BitVec 2)
  /-- SYNC_CONFIG (R279). Sets OWNER and notify parameters for a range of sync objects. -/
  | syncConfig (ch : BitVec 2)
  /-- FLUSH (R131). Walks sets, cleaning or invalidating KIND 0 lines of a range. -/
  | flush (ch : BitVec 2)
  /-- SCRUB_CFG (R401). Sets the scrub and calibration enables, CAL_STEP and MAX_UNITS. -/
  | scrubCfg (ch : BitVec 2)
  /-- REPAIR_STATUS (R348). Returns spare counts, retirements and the fault log. -/
  | repairStatus (ch : BitVec 2)
  /-- REPAIR_APPLY (R393). Maps a row or column group to a spare and moves its lines, or retires the locations. -/
  | repairApply (ch : BitVec 2)
  /-- TELEM_READ (R349). Returns one selected telemetry set. -/
  | telemRead (ch : BitVec 2)
  /-- FW_VERSION (R337). Returns the firmware or boot ROM version. -/
  | fwVersion (ch : BitVec 2)
  /-- FW_LOAD_BEGIN (R323). Starts a firmware load of a given LENGTH and discards any partial load. -/
  | fwLoadBegin (ch : BitVec 2)
  /-- FW_LOAD_DATA (R323). Writes 48 image bytes at OFFSET. -/
  | fwLoadData (ch : BitVec 2)
  /-- FW_LOAD_END (R323). Checks, authenticates and starts the image, or enters SAFE. -/
  | fwLoadEnd (ch : BitVec 2)
  /-- WALK_DONE (R338). A background walk's completion condition is met, and its command completes. -/
  | walkDone
  /-- HST_DOMAIN_CLEAR (R357). A write of 1 to DEAD clears the domain-death record, except in FENCED. -/
  | hstDomainClear
  /-- HST_APT_SYNC_READ (R296). A read that is answered after earlier aperture accesses from the same SRC and returns the count of such reads. -/
  | hstAptSyncRead
  /-- RST_SWREQ_COLD (R362). A keyed write with REACH 0 raises a cold software reset 2 us after the response. -/
  | rstSwreqCold
  /-- RST_SWREQ_WARM (R362). A keyed write with REACH 1 raises a warm software reset 2 us after the response. -/
  | rstSwreqWarm
  /-- RST_SWREQ_BLOCK (R362). A keyed write with REACH 2 raises a block reset of UNIT 2 us after the response. -/
  | rstSwreqBlock
  /-- RST_CNT_CLR (R361). A keyed write, made while LOCK is clear, sets every reset counter to 0. -/
  | rstCntClr
  /-- RST_PWR_CTRL_WRITE (R423). A TIER_OFF change requests tiers off or on. -/
  | rstPwrCtrlWrite
  /-- PMC_CNT_CLR (R431). Writing CLR clears a live counter. -/
  | pmcCntClr
  /-- REGISTER_WRITE (R7). A write to a window register with no row of its own sets its fields by their access codes. -/
  | registerWrite
  /-- SOFTWARE_RESET_RAISE (R343). The 2-us delay expires and the requested reset is asserted. -/
  | softwareResetRaise
  /-- POWER_ON (R403). rst_por_n asserts a cold reset with the backup check and fuse read, isolating outputs. -/
  | powerOn (vbakLost : Bool)
  /-- BROWN_OUT (R57). bor_det high for 2 ref_clk cycles asserts a cold reset as for power-on. -/
  | brownOut
  /-- PIN_RESET (R403). rst_pkg_n asserts a warm reset. -/
  | pinReset
  /-- CLOCK_FAIL (R406). The sclk monitor sees 4 ref_clk cycles with too few edges, sets rst_req_out, and raises a warm reset. -/
  | clockFail
  /-- WATCHDOG (R407). The armed Lehr watchdog expires 50 ms after its last restart and raises a warm reset. -/
  | watchdog
  /-- WDOG_WARN (R407). The watchdog reaches 25 ms and raises its warning event. -/
  | wdogWarn
  /-- LEHR_TIMER (R367). The Lehr's timer expires and raises its private event. -/
  | lehrTimer
  /-- LOCKUP (R408). An entry stays occupied across 64 frame boundaries and raises a warm reset. -/
  | lockup
  /-- RESET_RELEASE (R405). The reset domains release in order, ky_link_up rises and IO credits return. -/
  | resetRelease
  /-- BLOCK_RESET_RELEASE (R414). A unit's block reset hold ends and the unit is released. -/
  | blockResetRelease (unit : BitVec 3)
  /-- WARM_SWEEP_END (R410). The warm sweep of the tag array finishes, and held walks resume. -/
  | warmSweepEnd
  /-- FUSE_WORD (R59). fuse_ack returns a fuse word, which is applied to the repair map. -/
  | fuseWord (data : BitVec 32)
  /-- FUSE_TIMEOUT (R59). No fuse_ack arrives within 1,024 ref_clk cycles, and the slice enters SAFE. -/
  | fuseTimeout
  /-- LEHR_RELEASE (R321). After initialisation the Lehr leaves reset and runs its boot ROM, checking any retained firmware. -/
  | lehrRelease
  /-- PWR_TIER_ACK (R55). The switch raises or lowers pwr_tier_ack for a tier. -/
  | pwrTierAck (tier : BitVec 2) (level : Bool)
  /-- TIER_TRANSITION_START (R419). The sequencer starts a waiting tier power-up or power-down, no earlier than 16 us after the last one. -/
  | tierTransitionStart (tier : BitVec 2)
  /-- BANK_GROUP_ENABLE (R419). A bank group is enabled or disabled at its 2-us step. -/
  | bankGroupEnable (tier : BitVec 2)
  /-- TIER_READY (R419). 2 us after group 3 is enabled, the tier is ready for its fill. -/
  | tierReady (tier : BitVec 2)
  /-- TIER_FILL_START (R419). A ready tier's zero fill starts when no other fill runs. -/
  | tierFillStart (tier : BitVec 2)
  /-- TIER_FILL_END (R389). A tier's zero fill ends and the tier is ON. -/
  | tierFillEnd (tier : BitVec 2)
  /-- PWR_SLEEP_REQ (R56). The package requests logic power-off, and the slice prepares retention. -/
  | pwrSleepReq
  /-- SLEEP_ACK (R425). Once the state and the absence of walks allow, the slice saves state, clamps outputs and raises pwr_sleep_ack. -/
  | sleepAck
  /-- WAKE (R425). The restored supply and the fall of pwr_sleep_req wake the slice, which restores state and lowers pwr_sleep_ack. -/
  | wake
  /-- GTIME_CAPTURE (R54). On each ref_clk edge the slice captures gtime_in and carries it into the sclk copy that stamps frames, deadlines, trace and telemetry. -/
  | gtimeCapture (gtime : BitVec 64)
  /-- DROOP_EXCURSION (R439). A local supply excursion below 92 % of nominal lasting at least 2 clk adds 1 to the droop count of its tier or the base. -/
  | droopExcursion (site : BitVec 3)
  /-- FIRMWARE_START (R323). The boot ROM's checks of a FW_LOAD_END finish; it writes the response and either starts firmware at ENTRY, which sets CONFIG within 1 ms, or enters SAFE. -/
  | firmwareStart
  deriving DecidableEq, Repr

end Sys2Proof
end

