-- ==== Sys2Proof/WellFormed.lean ====
section
/-! DEFINITION. Which commands name something that the block has: a response lane, a retry-tracker entry, a droop detector. -/
namespace Sys2Proof

/-- Responses leave on ky_io_out, ky_rsp_out and ky_dat_out alone (R84, R108). -/
def responseLane : Lane → Bool
  | .io => true
  | .rsp => true
  | .dat => true
  | .snp => false
  | .gth => false
  | .req => false

/-- A command is well formed: the retry tracker has 128 entries (R190), there are five droop detectors (R439), and responses
leave on three lanes. Every other operand is bounded by its type. -/
def WellFormed : Instr → Bool
  | .responseSend ch => responseLane ch
  | .retryTrackerExpiry entry => entry < 128
  | .droopExcursion site => site.toNat ≤ 4
  | _ => true

end Sys2Proof
end

