-- ==== Sys2Proof/Decode.lean ====
section
/-! DEFINITION. The command that a word spells: the opcode table gives no row any bits, so a word spells none. -/
namespace Sys2Proof

/-- spec/opcode_table.json gives no row of this block any bits: no word spells a command. -/
def decodeTableWord (_nbits _w : Nat) : Option Instr := none

end Sys2Proof
end

