-- ==== Sys2Proof/Config.lean ====
section
/-! DEFINITION. What an implementation fixes, and the free values: constants the spec leaves open, which no proof can evaluate. -/
namespace Sys2Proof.Config

/-- FREE VALUE. R380: an error in three or more symbols of a codeword may be corrected wrongly or go undetected.
`true` when the code reports it as uncorrectable; indexed by the codeword, numbered over all four structures, and by a fresh
count. -/
opaque wideErrorSeen : Nat → Nat → Bool

/-- FREE VALUE. R380: the 128 data bits that the code delivers for an error it did not see or corrected wrongly. -/
opaque wideErrorData : Nat → Nat → BitVec 128

/-- FREE VALUE. R439: the latest conversion of temperature sensor `i` (T0 sensors 0 and 1, T1, T2, T3, base), in units
of 0.125 °C, at the sample with this number. -/
opaque temperature : Nat → Nat → BitVec 16

/-- FREE VALUE. R361, R403: whether vbak has been lost by a BROWN_OUT, by the count of ref_clk edges; the row carries no level of it. -/
opaque vbakLost : Nat → Bool

/-- FREE VALUE. R402: the best sense setting that a calibration of a bank finds, by bank and number of the calibration; the spec
does not number the settings. -/
opaque senseFound : Nat → Nat → Nat

/-- FREE VALUE. R402: the fuse-default sense setting of a bank. -/
opaque senseDefault : Nat → Nat

/-- FREE VALUE. R322: whether the ECDSA P-384 signature (r, s) verifies over the SHA-384 value of header bytes 0 to 71
under the Gocheni firmware-signing key, which the spec does not give. -/
opaque signatureVerifies : BitVec 384 → BitVec 384 → BitVec 384 → Bool

/-- FREE VALUE. R337: the boot ROM version that FW_VERSION reports in bytes 16 to 17; the spec gives no number. -/
opaque bootRomVersion : BitVec 16

/-- FREE VALUE. R61: the level on tst_wso, by clk; in service the wrapper is transparent and the spec names no level. -/
opaque tstWso : Nat → Bool

/-- FREE VALUE. R206: the STATE field of the poisoned COMP_DATA that a read receives in a dead domain, by acceptance number;
the spec fixes POISON and the data alone. -/
opaque deadState : Nat → BitVec 3

/-- FREE VALUE. R410: DIRTY of the tag entry of a held way that the warm sweep rebuilds; the spec gives its data as lost and
names no value for DIRTY. Indexed by the location. -/
opaque rebuiltDirty : Nat → Bool

/-- FREE VALUE. R42, R48, R49, R272: which free number an own request, a memory access or a home transaction takes as its
tag; the spec asks only that outstanding ones are distinct. Indexed by the pool, the clk and the numbers left. -/
opaque tagPick : Nat → Nat → Nat → Nat

/-- FREE VALUE. R272, R280: SCOPE (0 CORE, 1 CHIP, 2 SYSTEM) of a request of the slice's own, by TXN; the spec names it
for the ADD of a notify alone. -/
opaque ownScope : Nat → Fin 3

end Sys2Proof.Config
end

