-- ==== Sys2Proof/Machine/Sparse.lean ====
section
/-! DEFINITION. Sparse tables: lists of (key, value) pairs in one canonical form, keys rising and no default value listed. -/
namespace Sys2Proof.Machine

/-- A table indexed by number; an unlisted key reads as the default that the reader names. -/
abbrev Sparse (α : Type) := List (Nat × α)

/-- The entry at key `k`, `d` when none is listed. -/
def sget {α : Type} (d : α) : Sparse α → Nat → α
  | [], _ => d
  | (k', v) :: m, k => if k = k' then v else if k < k' then d else sget d m k

/-- Insert or replace a listed value, keeping the keys rising. -/
def sput {α : Type} : Sparse α → Nat → α → Sparse α
  | [], k, v => [(k, v)]
  | (k', v') :: m, k, v =>
    if k < k' then (k, v) :: (k', v') :: m
    else if k = k' then (k, v) :: m
    else (k', v') :: sput m k v

/-- Remove the value listed at a key, if one is. -/
def sdel {α : Type} (m : Sparse α) (k : Nat) : Sparse α := m.filter fun e => e.1 ≠ k

/-- Write the entry at key `k`: writing the default removes the listed value, so equal tables are equal lists. -/
def sset {α : Type} [DecidableEq α] (d : α) (m : Sparse α) (k : Nat) (v : α) : Sparse α :=
  if v = d then sdel m k else sput m k v

/-- The canonical form: keys strictly rising, no value equal to the default. -/
abbrev Sparse.wf {α : Type} (d : α) (m : Sparse α) : Prop :=
  m.Pairwise (fun a b => a.1 < b.1) ∧ ∀ e ∈ m, e.2 ≠ d

/-- Replace the first element that satisfies `p`. -/
def updFirst {α : Type} (p : α → Bool) (f : α → α) : List α → List α
  | [] => []
  | a :: l => if p a then f a :: l else a :: updFirst p f l

/-- Remove the first element that satisfies `p`. -/
def dropFirst {α : Type} (p : α → Bool) : List α → List α
  | [] => []
  | a :: l => if p a then l else a :: dropFirst p l

/-- Apply `f` to every element that satisfies `p`. -/
def updAll {α : Type} (p : α → Bool) (f : α → α) (l : List α) : List α :=
  l.map fun a => if p a then f a else a

/-- The element with the smallest key among those given, the earliest one among equals. -/
def minBy {α : Type} (key : α → Nat) : List α → Option α
  | [] => none
  | a :: l =>
    match minBy key l with
    | none => some a
    | some b => if key a ≤ key b then some a else some b

/-- The first number below `n` that satisfies `p`. -/
def firstBelow (n : Nat) (p : Nat → Bool) : Option Nat := (List.range n).find? p

/-- The first class from `start` in cyclic order modulo 64 that satisfies `p` (R97, R311). -/
def firstCyclic (start : Nat) (p : Nat → Bool) : Option Nat :=
  ((List.range 64).map fun i => (start + i) % 64).find? p

/-- Sum of a list of naturals. -/
def sumNat : List Nat → Nat
  | [] => 0
  | n :: l => n + sumNat l

end Sys2Proof.Machine
end

