-- ==== Sys2Proof/Machine/State.lean ====
section
/-! DEFINITION. The state of one slice as plain data, its faults and refusals, and the state after reset. -/
namespace Sys2Proof.Machine

/-! ## Message records (02, R39 to R46) -/

/-- The header of a REQ flit (R39). -/
structure Req where
  op : BitVec 8
  txn : BitVec 12
  src : BitVec 12
  addr : BitVec 52
  size : BitVec 3
  qos : BitVec 6
  deadline : BitVec 16
  scope : BitVec 2
  priv : BitVec 2
  domain : BitVec 8
  dlValid : Bool
  streaming : Bool
  noAlloc : Bool
  deriving DecidableEq, Repr

/-- A DAT flit (R44). -/
structure Dat where
  txn : BitVec 12
  tgt : BitVec 12
  src : BitVec 12
  poison : BitVec 8
  dop : BitVec 4
  state : BitVec 3
  data : LineBits
  deriving DecidableEq, Repr

/-- An RSP flit (R43). -/
structure Rsp where
  op : BitVec 8
  txn : BitVec 12
  tgt : BitVec 12
  src : BitVec 12
  status : BitVec 8
  state : BitVec 3
  deriving DecidableEq, Repr

/-- An SNP flit (R42). -/
structure Snp where
  op : BitVec 8
  txn : BitVec 12
  tgt : BitVec 12
  fwdSrc : BitVec 12
  fwdTxn : BitVec 12
  laddr : BitVec 45
  fwdOk : Bool
  deriving DecidableEq, Repr

/-- A GTH flit (R45). -/
structure Gth where
  op : BitVec 8
  txn : BitVec 12
  src : BitVec 12
  laddr : BitVec 45
  cidx : BitVec 4
  qos : BitVec 6
  deadline : BitVec 16
  dlValid : Bool
  priv : BitVec 2
  domain : BitVec 8
  poison : BitVec 8
  payload : LineBits
  deriving DecidableEq, Repr

/-- An IO flit (R46). -/
structure Io where
  op : BitVec 8
  txn : BitVec 12
  src : BitVec 12
  addr : BitVec 52
  len : BitVec 6
  priv : BitVec 2
  domain : BitVec 8
  status : BitVec 8
  payload : BitVec 512
  deriving DecidableEq, Repr

/-- The content of one line: data, POISON and the header bits of its metadata word (R71). -/
structure Line where
  data : LineBits
  poison : BitVec 8
  hdr : BitVec 56
  deriving DecidableEq, Repr

/-- A line of zeros without poison. -/
def Line.zero : Line := ⟨0, 0, 0⟩

/-! ## Instantiation parameters -/

/-- CLAMP_ parameters of the outputs of the switched region (R62). Those of R63 must be 0. -/
structure Clamps where
  ioOutFlit : BitVec 720
  rspOutFlit : BitVec 72
  datOutFlit : BitVec 1224
  snpOutFlit : BitVec 144
  gthOutFlit : BitVec 1296
  reqOutFlit : BitVec 144
  /-- ky_io_out_valid, ky_rsp_out_valid, ky_dat_out_valid, ky_snp_out_valid, ky_gth_out_valid, ky_req_out_valid. -/
  outValid : BitVec 6
  /-- ky_io_in_crd, ky_rsp_in_crd, ky_dat_in_crd, ky_gth_in_crd, ky_req_in_crd. -/
  inCrd : BitVec 5
  linkUp : Bool
  mpRdReqValid : Bool
  mpRdReqAddr : BitVec 45
  mpRdReqTag : BitVec 9
  mpWrValid : Bool
  mpWrAddr : BitVec 45
  mpWrTag : BitVec 6
  mpWrBeat : Bool
  mpWrData : BitVec 512
  mpWrPar : BitVec 64
  mpWrPoison : BitVec 4
  fuseRdReq : Bool
  fuseAddr : BitVec 11
  trcValid : Bool
  trcData : BitVec 128
  tstWso : Bool
  deriving DecidableEq, Repr

/-- The instantiation parameters of one slice. No command changes them. -/
structure Params where
  /-- SLICE_INDEX (R10). -/
  sliceIndex : BitVec 7
  /-- SLICE_RID (R160). -/
  sliceRid : BitVec 12
  /-- REG_IO_BASE (R350). -/
  regBase : BitVec 52
  /-- SYNC_IO_BASE (R275). -/
  syncBase : BitVec 52
  /-- APT_IO_BASE (R153). -/
  aptBase : BitVec 52
  /-- EVT_MSG_BASE_0 to 3 (R370). -/
  evt0 : BitVec 52
  evt1 : BitVec 52
  evt2 : BitVec 52
  evt3 : BitVec 52
  /-- REF_CLK_MHZ (R418). -/
  refMHz : Nat
  clamp : Clamps
  deriving DecidableEq, Repr

/-! ## The always-on region and the backup domain (15, 18) -/

/-- The domain record HST_DOMAIN and its gtime pair (R357). -/
structure DomRec where
  dead : Bool
  again : Bool
  code : BitVec 4
  detail : BitVec 17
  gtime : BitVec 64
  deriving DecidableEq, Repr

/-- RST_CAUSE (R360). -/
structure CauseReg where
  cause : BitVec 4
  reach : BitVec 2
  unit : BitVec 3
  deriving DecidableEq, Repr

/-- Tier states with the encoding of R422. -/
inductive TierSt where
  | off | poweringUp | filling | on | poweringDown | pendingReenable | pendingOff
  deriving DecidableEq, Repr

/-- One tier's power state (R419, R423). -/
structure Tier where
  st : TierSt
  /-- pwr_tier_req and pwr_tier_ack (R55). -/
  req : Bool
  ack : Bool
  /-- Bank groups enabled, 0 to 4. -/
  groups : Nat
  /-- ref_clk stamp of the acknowledgement, or of the last group step when powering down. -/
  stamp : Nat
  /-- The state shown before PENDING_OFF: the fill has begun waiting or running (R423). -/
  ready : Bool
  /-- clk at which the zero fill began, when it runs. -/
  fillAt : Option Nat
  deriving DecidableEq, Repr

/-- A reset in progress of cold or warm reach: what RESET_RELEASE will record (R360) and where the hold began (R406). -/
structure Hold where
  cause : BitVec 4
  reach : BitVec 2
  /-- Causes raised since assertion, each counted at release (R361). -/
  raised : List (BitVec 4)
  since : Nat
  /-- The assertion was of cause 1 or 2: fuse read and backup check (R386). -/
  powerOn : Bool
  /-- clk of the assertion: causes of one clk are weighed against each other (R360). -/
  clk : Nat
  /-- Causes 4, 7 and 8 whose conditions held in that clk and that have not been raised in it. -/
  besides : List (BitVec 4)
  /-- clk in which the ref_clk part released; the sclk part follows 2 clk later (R406). -/
  refOut : Option Nat
  deriving DecidableEq, Repr

/-- A software reset raised and waiting for its 2 µs (R343, R362). -/
structure SwReset where
  cause : BitVec 4
  reach : BitVec 2
  unit : BitVec 3
  due : Nat
  deriving DecidableEq, Repr

/-- A unit held in block reset (R414), with the cause to record and the ref_clk stamp of its release. -/
structure BlockHold where
  unit : BitVec 3
  cause : BitVec 4
  due : Nat
  /-- UNIT 7: clk at which the fill ends (R415). -/
  dueClk : Nat
  /-- Causes counted at its release: its own and those absorbed while it lasts (R360, R361). -/
  raised : List (BitVec 4)
  deriving DecidableEq, Repr

/-- The sclk monitor: rising edges of sclk in ref_clk cycles (R406). -/
structure SclkMon where
  /-- Edges in the ref_clk cycle that runs. -/
  edges : Nat
  /-- Consecutive cycles up to the last with at least 3 edges; 64 stand for as many or more. -/
  good : Nat
  /-- Consecutive cycles up to the last with fewer than 2 edges, of a switched region out of reset and powered. -/
  slow : Nat
  deriving DecidableEq, Repr

/-- The always-on region and the backup domain. -/
structure AlwaysOn where
  hold : Option Hold
  asleep : Bool
  sleepReq : Bool
  sleepAck : Bool
  domFatalOut : Bool
  rstReqOut : Bool
  dom : DomRec
  cause : CauseReg
  lock : Bool
  /-- Backup domain: RST_COUNT0 and RST_COUNT1, causes 1 to 8 (R361). -/
  counts : List (BitVec 8)
  /-- Causes counted in this clk: a counter clear of the same clk acts first (R361). -/
  counted : List (BitVec 4)
  mode : BitVec 2
  bakLost : Bool
  lehrEpoch : BitVec 16
  hostEpoch : List (BitVec 16)
  tierOff : BitVec 4
  tiers : List Tier
  /-- ref_clk stamp at which the last tier transition started, and the tier in transition (R419). -/
  lastTransition : Option Nat
  moving : Option Nat
  /-- ref_clk edges counted. -/
  refClk : Nat
  swReset : List SwReset
  blockHolds : List BlockHold
  sclk : SclkMon
  /-- rst_por_n or rst_pkg_n has fallen and not risen again (R406, log 103). -/
  pinLow : Bool
  deriving DecidableEq, Repr

/-! ## Lifecycle and the Lehr (14) -/

/-- Slice states with the encoding of R320. -/
inductive SliceSt where
  | boot | safe | config | running | quiescing | quiesced | fenced
  deriving DecidableEq, Repr

/-- Firmware load and firmware identity (R322 to R324). -/
structure Fw where
  /-- LENGTH of a load in progress; none when FW_LOAD_BEGIN has not been received. -/
  length : Option Nat
  /-- Image bytes: the header, then the body in SRAM. -/
  image : List Host.Cell
  /-- 4-B words written since FW_LOAD_BEGIN, in ascending order. -/
  words : List Nat
  /-- FW_LOAD_END was taken and its checks run (FIRMWARE_START ends them). -/
  checking : Bool
  /-- A checked image is in SRAM. -/
  loaded : Bool
  entry : BitVec 32
  major : BitVec 8
  minor : BitVec 8
  patch : BitVec 8
  build : BitVec 32
  digest : BitVec 384
  bodyLen : Nat
  deriving DecidableEq, Repr

/-- Fuse read progress (R59, R386). -/
structure Fuse where
  /-- fuse_rd_req. -/
  rdReq : Bool
  addr : BitVec 11
  /-- Every word has been read, or no read is due. -/
  done : Bool
  /-- ref_clk stamp of the latest change of fuse_rd_req: its rise, from which the acknowledgement is timed, or its fall. -/
  since : Nat
  deriving DecidableEq, Repr

structure Life where
  st : SliceSt
  /-- SAFE_CAUSE: 1 firmware check, 2 fuse timeout (R356). -/
  safeCause : BitVec 2
  agents : Nat
  snpExp : Nat
  /-- The Lehr is out of reset (R321). -/
  lehrUp : Bool
  fuse : Fuse
  /-- The warm sweep: the first clk in which it can have ended (R410). -/
  sweep : Option Nat
  fw : Fw
  /-- Watchdog: ref_clk stamp of its last restart once armed (R407), and whether WDOG_WARN was raised. -/
  wdog : Option Nat
  wdogWarned : Bool
  /-- Tiers zero-filled since the last cold reset (R386). -/
  filled : BitVec 4
  /-- The last cold or warm reset was a warm one, so the boot ROM checks the firmware that the SRAM holds (R324). -/
  warm : Bool
  /-- Clk d of a declared domain death whose drain has not ended (R206). -/
  drain : Option Nat
  /-- A fatal cause found in this clk, lowest code kept: code and detail (R205). -/
  fatal : Option (BitVec 4 × BitVec 17)
  /-- Frame number from which the forward-progress monitor watches: that at which SLICE_START left CONFIG (R408). -/
  watch : Nat
  /-- Channel of the running SLICE_QUIESCE (R340). -/
  quiescing : Option (BitVec 2)
  /-- HST_DOMAIN before a write of 1 to DEAD in this clk: a declaration of the same clk undoes that write (R9, R357). -/
  domClr : Option DomRec
  deriving DecidableEq, Repr

/-! ## Ports (02) -/

/-- Isolation of the outputs of the switched region (R64). -/
inductive Isolation where
  | none | fence | full
  deriving DecidableEq, Repr

/-- One counter for each input channel (R32). -/
structure PerIn where
  io : Nat
  rsp : Nat
  dat : Nat
  gth : Nat
  req : Nat
  deriving DecidableEq, Repr

/-- One 6-bit credit counter for each outbound channel (R35). -/
structure PerOut where
  io : BitVec 6
  rsp : BitVec 6
  dat : BitVec 6
  snp : BitVec 6
  gth : BitVec 6
  req : BitVec 6
  deriving DecidableEq, Repr

structure Port where
  linkUp : Bool
  /-- Credits the router stop holds toward the slice (R33, R34). -/
  credIn : PerIn
  /-- Credits to return: lane and the first clk in which the pulse may come. -/
  crdDue : List (Lane × Nat)
  /-- Lanes on which ky_*_in_crd is 1 in this clk. -/
  crdPin : List Lane
  credOut : PerOut
  ioOut : Option (BitVec 720)
  rspOut : Option (BitVec 72)
  datOut : Option (BitVec 1224)
  snpOut : Option (BitVec 144)
  gthOut : Option (BitVec 1296)
  reqOut : Option (BitVec 144)
  isolate : Isolation
  /-- The initial REQ, RSP, DAT and GTH credits have been returned since ky_link_up rose (R36). -/
  crdGiven : Bool
  deriving DecidableEq, Repr

/-! ## Input queues (03 R81, 04, 13) -/

/-- A REQ request that has arrived, or waits for its data flit. -/
structure ReqEnt where
  seq : Nat
  r : Req
  dat : Option Dat
  /-- Clk in which its last needed flit sat in the input register (R93). -/
  arr : Nat
  /-- DF of R302. -/
  df : BitVec 32
  /-- Frame number at entry (R408). -/
  born : Nat
  /-- The slice raised it itself: the number of its record (R272). -/
  self : Option Nat
  deriving DecidableEq, Repr

/-- A contribution that has arrived. -/
structure GthEnt where
  seq : Nat
  g : Gth
  arr : Nat
  df : BitVec 32
  born : Nat
  /-- It holds a reserved ingress entry (R95). -/
  ingRes : Bool
  /-- It holds a reserved readout entry (R236). -/
  roRes : Bool
  /-- A local forward: the readout entry it waits in (R250). -/
  fwd : Option Nat
  deriving DecidableEq, Repr

structure IoEnt where
  seq : Nat
  f : Io
  arr : Nat
  born : Nat
  /-- A payload byte failed parity (R38). -/
  parErr : Bool
  deriving DecidableEq, Repr

structure Queues where
  reqReg : List ReqEnt
  req : List ReqEnt
  /-- WDATA and OPERAND flits held until their REQ flit arrives, with arrival clk (R180). -/
  datWait : List (Dat × Nat)
  /-- SRC and TXN of data flits that belong to refused requests and have not arrived (R306). -/
  datDrop : List (BitVec 12 × BitVec 12)
  io : List IoEnt
  gth : List GthEnt
  direct : Option GthEnt
  nextId : Nat
  deriving DecidableEq, Repr

/-! ## Pipeline (03) -/

/-- A request that a slot can admit (R93). -/
inductive Cand where
  | req (e : ReqEnt) | gth (e : GthEnt) | io (e : IoEnt)
  deriving DecidableEq, Repr

/-- Outcome of an accepted request, as the ACCEPT record and slot accounting show it (R433, R436). -/
inductive Outc where
  | done | retry | error
  deriving DecidableEq, Repr

/-- The way-mask group of an access with its mask and prefetch mode as they stood at its acceptance (R116). -/
structure Alloc where
  grp : Nat
  mask : BitVec 16
  mode : BitVec 2
  deriving DecidableEq, Repr

/-- An accepted request whose RES is still ahead (R74). -/
structure Staged where
  id : Nat
  acc : Nat
  cand : Cand
  locked : Bool
  /-- It has been answered already, at acceptance, ACC or MAP, with this outcome. -/
  out : Option Outc
  /-- gtime at acceptance (R239, R436). -/
  gtime : BitVec 64
  alloc : Alloc
  deriving DecidableEq, Repr

/-- What a request shows to filters and counters: SRC, class, privilege, line address (R430). -/
structure Who where
  src : BitVec 12
  cls : Nat
  priv : BitVec 2
  laddr : BitVec 45
  deriving DecidableEq, Repr

/-- An accepted request between ACC and its last stage. -/
structure Flight where
  id : Nat
  acc : Nat
  /-- Clk by which its later stages have moved (R77 to R79). -/
  delay : Nat
  locked : Bool
  cls : Nat
  /-- The gather region it contributes to (R212, R257). -/
  region : Option Nat
  /-- It performs an atomic (block reset of unit 1). -/
  atomic : Bool
  /-- The earlier requests whose UPD results it takes, each with the location taken (R79). -/
  deps : List (Nat × Nat)
  /-- The home transaction it opened, by table index (R187). -/
  txn : Option Nat
  /-- It holds a readout entry until HDR, `true` a reserved one (R236). -/
  ro : Option Bool
  who : Who
  /-- The slice's own request that it carries out (R239, R272). -/
  self : Option Nat
  deriving DecidableEq, Repr

/-- A line that a request has in flight between RES and AWR: the clk of its UPD and the line that UPD leaves (R79). -/
structure Use where
  flight : Nat
  loc : Nat
  upd : Nat
  line : Line
  deriving DecidableEq, Repr

/-- The structures that hold 144-bit codewords (R378). -/
inductive Store where
  | data | mword | tag | dir
  deriving DecidableEq, Repr

/-- What an array access does when it starts, besides occupying its bank pair. -/
inductive AccJob where
  | plain
  /-- A correct-and-write-back of a codeword (R382). -/
  | wback (st : Store) (cw : Nat)
  /-- The stored line is handled as R383 or R73 states: the codewords of the line that were uncorrectable. -/
  | fix (loc : Nat) (cws : BitVec 8) (hdrLost : Bool)
  /-- The read that fills an eviction-buffer entry: the order number of its line (R81, R121). -/
  | evict (ord : Nat)
  /-- A verify read of a rewritten codeword (R382). -/
  | verify (st : Store) (cw : Nat)
  deriving DecidableEq, Repr

/-- An array access that waits to start (R77). -/
structure ArrAcc where
  pair : Nat
  at_ : Nat
  /-- 0 locked-slot request, 1 other request, fill or victim read, 2 background (R77). -/
  rank : Nat
  ord : Nat
  flight : Option Nat
  cls : Nat
  write : Bool
  job : AccJob
  /-- Clk of its wait that its request has already been moved by, for an access of the same stage (R77). -/
  lag : Nat
  /-- The location it reads or writes, when it moves a line. -/
  loc : Option Nat
  /-- The request whose read found the error that it repairs: it moves with that request (R80). -/
  finder : Option Nat
  deriving DecidableEq, Repr

/-- An uncommitted array write of one line (R76). -/
structure PendWr where
  ord : Nat
  loc : Nat
  line : Line
  /-- DIRTY := 1 of a KIND 1 line takes effect with the commit (R442). -/
  dirty : Bool
  flight : Option Nat
  /-- Its home transaction; 256 once that has closed, its way being held still (R119, R181). -/
  txn : Option Nat
  /-- Clk of the commit, once the array write has started. -/
  at_ : Option Nat
  deriving DecidableEq, Repr

/-- The body of a response; `self` answers a request of the slice's own that this slice is home for. -/
inductive Body where
  | rsp (m : Rsp)
  | dat (m : Dat)
  | io (m : Io)
  | self (id : Nat) (status : BitVec 8) (retry : Bool) (line : Option Line)
  deriving DecidableEq, Repr

structure Resp where
  seq : Nat
  due : Nat
  body : Body
  flight : Option Nat
  txn : Option Nat
  /-- It answers an aperture access: its SRC and acceptance clk (R296). -/
  apt : Option (BitVec 12 × Nat)
  /-- The line enters the eviction buffer first (R112, NO_ALLOC). -/
  waitEv : Bool
  /-- REQ opcode it answers, for the drain of a dead domain (R206). -/
  rop : BitVec 8
  /-- Its offset is exact: a refusal, or a pinned access or contribution of a locked slot (R84, R107). -/
  exact : Bool
  /-- The input lane whose credit is returned in the clk in which it leaves (R95, R206, R306). -/
  crd : Option Lane
  deriving DecidableEq, Repr

/-- An accepted register-window access and the 32-bit halves that have not acted yet: offset and write data. -/
structure WinAcc where
  acc : Nat
  f : Io
  write : Bool
  off : Nat
  halves : List (Nat × BitVec 32)
  rdata : BitVec 512
  deriving DecidableEq, Repr

/-- Operations of the sync window (R276). -/
inductive SynOp where
  | read | signal | reset | arm
  deriving DecidableEq, Repr

structure SynAcc where
  acc : Nat
  f : Io
  obj : Nat
  op : SynOp
  deriving DecidableEq, Repr

/-- A CleanInvalidate of a KIND 1 line that waits for the line's memory write (R145): line and acceptance clk. -/
structure PinClean where
  line : Nat
  acc : Nat
  r : Req
  self : Option Nat
  flight : Nat
  deriving DecidableEq, Repr

structure Pipe where
  /-- Accepted requests before RES, oldest first. -/
  staged : List Staged
  flights : List Flight
  /-- Lines in flight, in the order in which they were taken. -/
  uses : List Use
  acc : List ArrAcc
  busy : Sparse Nat
  wr : List PendWr
  rsp : List Resp
  win : List WinAcc
  /-- First clk in which the next window access may act (R354, R375: one for each clk). -/
  winAt : Nat
  syn : List SynAcc
  cleans : List PinClean
  /-- Bytes of data in an internal datapath register that fail their parity, by the request that carries the data (R384). -/
  parity : List (Nat × Nat)
  /-- The tag entry to put back at a location whose uncommitted write is cancelled (R21, R206, R409). -/
  undo : Sparse (BitVec 64)
  adder : Nat
  nextSeq : Nat
  deriving DecidableEq, Repr

/-! ## The store (03, 17) -/

/-- Symbols in error of one stored codeword (R378); `hard` when the cells have failed for good (R390). -/
structure CellErr where
  st : Store
  cw : Nat
  syms : List Nat
  hard : Bool
  deriving DecidableEq, Repr

structure Arr where
  /-- Data array: byte addresses (set * 16 + way) * 128 + byte. -/
  data : List Host.Cell
  tags : Sparse (BitVec 64)
  mword : Sparse (BitVec 64)
  dir : Sparse (BitVec 128)
  errs : List CellErr
  verify : List (Store × Nat)
  sensed : Nat
  /-- Locations whose metadata word was found lost and has not been rewritten (R73), with whether GTH_HDR_LOST was raised. -/
  lost : List (Nat × Bool)
  /-- Codewords found in error in this clk: one happening is counted once (R385). -/
  found : List (Store × Nat)
  deriving DecidableEq, Repr

/-! ## Line-group map (01, 14 R341) -/

structure MapSt where
  committed : Bool
  active : Sparse (BitVec 7)
  /-- The line groups of this slice in ascending order (R66). -/
  mine : List Nat
  staging : Sparse (BitVec 7)
  /-- Marked staging entries, ascending. -/
  marks : List Nat
  deriving DecidableEq, Repr

/-! ## Coherence home (07, 08) -/

inductive TxnKind where
  | req | evict | bind | prefetch
  deriving DecidableEq, Repr

/-- Progress of a home transaction. -/
inductive TxnPh where
  /-- Snoops to send or answers to await. -/
  | snoop
  /-- A memory read has been decided and its data awaited. -/
  | mem
  /-- CleanInvalidate: the memory write of the line is awaited (R112). -/
  | memWr
  /-- Everything is performed; the response has not left. -/
  | resp
  /-- COMP_ACK is awaited, counted from the clk given (R204). -/
  | ack
  /-- Only the fill write is outstanding (R119), or it can close. -/
  | done
  deriving DecidableEq, Repr

/-- A snoop answer that has come and whose use is still to be decided in its clk (R120, R178). -/
structure SnpAns where
  agent : BitVec 12
  state : BitVec 3
  data : Option Line
  deriving DecidableEq, Repr

structure Txn where
  idx : Nat
  seq : Nat
  acc : Nat
  kind : TxnKind
  r : Req
  /-- DF of R302. -/
  df : BitVec 32
  wdat : Option Dat
  line : Nat
  /-- Key of its directory entry, and that entry's base form at RES after R177. -/
  dirKey : Option Nat
  base : BitVec 128
  snpOp : BitVec 8
  fwdOk : Bool
  toSnoop : List Nat
  /-- Agents whose answer is awaited, with the clk at which each snoop left. -/
  await : List (Nat × Nat)
  /-- The recorded owner's answer: STATE, and whether it came with data. -/
  ownerAns : Option (BitVec 3 × Bool)
  /-- Data to send to the requester as it came (R178). -/
  fwdData : Option Line
  /-- Answers of this clk, in the order in which they came. -/
  answers : List SnpAns
  /-- Clk from which the minimum figures count. -/
  last : Nat
  alloc : Alloc
  /-- Location held for the fill or for the write (R119). -/
  way : Option Nat
  /-- RES has made its decisions on the cache; what is left waits for snoop answers (R120). -/
  resd : Bool
  /-- SNP_DATA has been written into the home's copy since the memory read was decided: its data is of no use (R178). -/
  drop : Bool
  /-- Memory data taken. -/
  got : Option Line
  /-- A memory read decided before every snoop was answered is outstanding (R179). -/
  reading : Bool
  /-- Transaction index of the directory eviction it waits for (R196). -/
  evict : Option Nat
  /-- The directory entry to write at close; none when no entry is held. -/
  next : BitVec 128
  ph : TxnPh
  /-- Clk from which a missing COMP_ACK is timed. -/
  ackFrom : Option Nat
  acked : Bool
  needAck : Bool
  /-- A prefetch that fills the side buffer (R128). -/
  side : Bool
  born : Nat
  self : Option Nat
  recalled : Bool
  /-- An atomic whose unit was reset while it awaited recall answers: it is answered with ABORTED (R415). -/
  aborted : Bool
  deriving DecidableEq, Repr

/-- A retry-tracker entry (R190). -/
structure Track where
  slot : Nat
  src : BitVec 12
  txn : BitVec 12
  line : Nat
  status : BitVec 8
  count : Nat
  lastFrame : Nat
  deriving DecidableEq, Repr

/-- A starvation ticket (R191, R192). -/
structure Ticket where
  src : BitVec 12
  txn : BitVec 12
  line : Nat
  status : BitVec 8
  deriving DecidableEq, Repr

structure Home where
  txns : List Txn
  tracker : List Track
  tickets : List Ticket
  headFrame : Nat
  deriving DecidableEq, Repr

/-! ## Cache (05) -/

structure Group where
  mask : BitVec 16
  mode : BitVec 2
  deriving DecidableEq, Repr

/-- A stride detector (R127). -/
structure Det where
  last : Int
  stride : Int
  conf : Nat
  deriving DecidableEq, Repr

structure Side where
  line : Nat
  ln : Option Line
  /-- Order in which its data came. -/
  ord : Nat
  deriving DecidableEq, Repr

/-- Why a line goes to memory. -/
inductive EvWhy where
  | victim | walk | clean | noAlloc | sweep
  deriving DecidableEq, Repr

/-- A line waiting for an eviction-buffer entry (R81, R119, R121). -/
structure EvWait where
  ord : Nat
  line : Nat
  ln : Line
  why : EvWhy
  flight : Option Nat
  cls : Nat
  /-- What the request that sends it shows to filters (R430). -/
  who : Option Who
  /-- The location it is read from; a fill of that location waits for it (R83). -/
  loc : Option Nat
  /-- The clk in which it enters when an entry is free: c21 of a NO_ALLOC write (R112); the end of CHK, 6 clk after its array
  read starts, of a line from the array (R74). -/
  earliest : Nat
  /-- Its array read has not started: it starts once an entry is free (R81, R121). -/
  read : Bool
  /-- Its read has started and taken a free entry. -/
  taken : Bool
  /-- The directory eviction that waits for it to enter (R181, R195). -/
  txn : Option Nat
  deriving DecidableEq, Repr

inductive EvSt where
  | waiting | written
  deriving DecidableEq, Repr

structure EvEnt where
  ord : Nat
  line : Nat
  ln : Line
  why : EvWhy
  st : EvSt
  tag : Nat
  cls : Nat
  who : Option Who
  born : Nat
  deriving DecidableEq, Repr

structure Cache where
  waySet : BitVec 16
  /-- A cache-way set that applies at the next frame boundary (R135, R137). -/
  waySetNext : Option (BitVec 16)
  groups : Sparse Group
  groupsNext : List (Nat × Group)
  rt : Sparse (BitVec 4)
  rtNext : List (Nat × BitVec 4)
  det : Sparse Det
  detPtr : Sparse Nat
  side : List Side
  ev : List EvEnt
  evWait : List EvWait
  nextOrd : Nat
  deriving DecidableEq, Repr

/-! ## Memory port (02, 13) -/

inductive RdCause where
  | txn (idx : Nat) | bind (line : Nat)
  deriving DecidableEq, Repr

structure MpRead where
  cause : RdCause
  line : Nat
  cls : Nat
  df : Option (BitVec 32)
  ord : Nat
  /-- 0 demand, 1 background, 2 prefetch (R311). -/
  kind : Nat
  src : BitVec 12
  priv : BitVec 2
  deriving DecidableEq, Repr

structure MpOut where
  tag : Nat
  rd : MpRead
  beat0 : Option (BitVec 512 × BitVec 4)
  deriving DecidableEq, Repr

/-- One write beat on the memory port in this clk. -/
structure MpBeat where
  addr : BitVec 45
  tag : BitVec 6
  beat : Bool
  data : BitVec 512
  par : BitVec 64
  poison : BitVec 4
  deriving DecidableEq, Repr

structure Mp where
  rb : Nat
  wb : Nat
  level : BitVec 2
  filtered : BitVec 2
  nextLevel : BitVec 2
  wait : List MpRead
  presented : Option (Nat × MpRead)
  /-- The read that transfers in this clk: its tag and line address. -/
  rdPin : Option (Nat × BitVec 45)
  out : List MpOut
  /-- Tags whose data is discarded when it returns after a reset (R411), with the beats still to come. -/
  stale : List (Nat × Nat)
  staleWr : List Nat
  /-- A line whose beat 0 has transferred and whose beat 1 has not, with its line address. -/
  wrHalf : Option (EvEnt × BitVec 45)
  wrPin : List MpBeat
  rdPtr : Nat
  rdGranted : Sparse Nat
  effMin : Sparse Nat
  deriving DecidableEq, Repr

/-! ## Frame and Stake table (04) -/

inductive Copy where
  | a | b
  deriving DecidableEq, Repr

/-- A switch that STAKE_SWITCH armed (R103); `steps` counts the ramp steps taken (R427). -/
structure Switch where
  dest : Copy
  gtime : BitVec 64
  steps : Nat
  deriving DecidableEq, Repr

/-- Slot totals of a frame (R433, R434). -/
structure SlotTot where
  retired : Nat
  wasted : Nat
  front : Nat
  back : Nat
  bg : Nat
  total : Nat
  gtime : BitVec 64
  deriving DecidableEq, Repr

structure Frame where
  clk : Nat
  pos : Nat
  /-- The frame clk 0 of a new frame is due before the next slot. -/
  due : Bool
  /-- A cut frame ended at this position (R87). -/
  cut : Option Nat
  len : Nat
  lenNext : Option Nat
  frameNo : Nat
  gtime : BitVec 64
  gcap1 : BitVec 64
  gcap2 : BitVec 64
  bGtime : BitVec 64
  copyA : Sparse (BitVec 32)
  copyB : Sparse (BitVec 32)
  active : Copy
  switch : Option Switch
  everSwitched : Bool
  minPtr : Nat
  bePtr : Nat
  granted : Sparse Nat
  ramp : Nat
  tickLost : Bool
  /-- Clk of the latest change of TICK_LOST, which its filter samples (R368). -/
  tickLostAt : Nat
  /-- Clk from which FRAME_CLKS + 64 clk without a tick are counted (R88). -/
  tickFrom : Option Nat
  aligned : Bool
  slips : BitVec 16
  lastSlip : BitVec 13
  now : SlotTot
  /-- Totals of the frames that have ended and are not yet reported, oldest first, each with the clk of its report. -/
  report : List (SlotTot × Nat)
  deriving DecidableEq, Repr

/-! ## QoS (13) -/

structure ClassPar where
  minSlots : Nat
  minMiss : Nat
  qRsv : Nat
  qCap : Nat
  deadline : Bool
  deriving DecidableEq, Repr

structure Qos where
  cls : Sparse ClassPar
  next : List (Nat × ClassPar)
  scaled : Bool
  missSlot : BitVec 64
  missBw : BitVec 64
  missDl : BitVec 64
  /-- Clk of the latest DL record (R318). -/
  dlAt : Option Nat
  deriving DecidableEq, Repr

/-! ## Pinned regions and the aperture (06) -/

inductive RegPh where
  | binding | bound | unbinding
  deriving DecidableEq, Repr

structure Region where
  typ : BitVec 2
  owner : BitVec 8
  base : BitVec 52
  size : Nat
  ways : BitVec 16
  l0 : Nat
  n : Nat
  ph : RegPh
  deriving DecidableEq, Repr

structure Pin where
  regions : Sparse Region
  aptTarget : BitVec 32
  aptSize : BitVec 7
  /-- APERTURE_SET commands in progress: channel, TARGET[51:20] and SIZE (R156). -/
  aptNext : List (BitVec 2 × BitVec 32 × BitVec 7)
  /-- SRC and acceptance clk of each aperture access that has not sent its response. -/
  aptOpen : List (BitVec 12 × Nat)
  syncCount : BitVec 32
  deriving DecidableEq, Repr

/-! ## Gather (09, 10) -/

structure Template where
  mode : BitVec 2
  opt : Bool
  infmt : BitVec 3
  elems : BitVec 2
  outfmt : BitVec 4
  anchor : Int
  sqanchor : Int
  expect : Nat
  fwd : Bool
  fwdCidx : BitVec 4
  resultClass : BitVec 6
  resultBase : BitVec 52
  resultStride : Nat
  resultSliceStride : Nat
  statusBase : BitVec 52
  statusSliceStride : Nat
  sync : BitVec 15
  deriving DecidableEq, Repr

/-- A request or contribution of the slice's own: what it belongs to (R272). -/
inductive SelfOwner where
  | readout (id : Nat) | fwd (id : Nat) | image (line : Nat) (rd : Bool) | notify (ord : Nat)
  /-- A write to a line of this slice that has committed: its answer has nothing left to do (R239). -/
  | spent
  deriving DecidableEq, Repr

inductive SelfSt where
  | toSend
  /-- It waits to enter the slice's own request queue in a slot (R272, R307). -/
  | entering
  | waitAns | resendAt (clk : Nat)
  deriving DecidableEq, Repr

structure SelfReq where
  id : Nat
  owner : SelfOwner
  r : Req
  dat : Option Dat
  g : Option Gth
  st : SelfSt
  deriving DecidableEq, Repr

/-- One planned output of a readout entry: an address with data, or a contribution. -/
inductive RoItem where
  | write (addr : BitVec 52) (bytes : Nat) (data : LineBits) (poison : Bool)
  | fwd (payload : LineBits) (poison : Bool) (last : Bool)
  deriving DecidableEq, Repr

/-- Flags of a close (R239). -/
structure Flags where
  loss : Bool
  ovf : Bool
  poison : Bool
  rovf : Bool
  negvar : Bool
  deriving DecidableEq, Repr

structure RoEnt where
  id : Nat
  region : Nat
  ctx : Nat
  head : Nat
  t : Template
  owner : BitVec 8
  lines : List LineBits
  round : BitVec 16
  fl : Flags
  maxexp : BitVec 9
  gtime : BitVec 64
  /-- First clk in which a write may leave (R238). -/
  at_ : Nat
  planned : Bool
  todo : List RoItem
  /-- The close-status record has still to be issued. -/
  status : Bool
  /-- Writes and forwards issued and not complete. -/
  open_ : Nat
  /-- Every output has been issued (R239). -/
  issuedAll : Bool
  res : Bool
  born : Nat
  /-- HDR has made the CLOSE record and the counts of the close (R429, R436). -/
  said : Bool
  /-- It has taken over the readout entry of this close, whose forward closed its context (R250). -/
  tookFrom : Option Nat
  deriving DecidableEq, Repr

structure GthSt where
  tmpl : Sparse Template
  armed : Sparse Nat
  /-- GATHER_REGION commands that wait for their clk (R212): channel, region, template. -/
  tmplNext : List (BitVec 2 × Nat × Template)
  ro : List RoEnt
  /-- First clk in which the next internal signal may act (R278: one for each clk). -/
  sigAt : Nat
  self : List SelfReq
  deriving DecidableEq, Repr

/-! ## Sync objects (11) -/

structure SyncObj where
  counter : BitVec 64
  thr : BitVec 64
  armed : Bool
  pend : Bool
  owner : BitVec 8
  nkind : BitVec 2
  naddr : BitVec 52
  nclass : BitVec 6
  deriving DecidableEq, Repr

/-- A sync object with every field 0. -/
def SyncObj.zero : SyncObj := ⟨0, 0, false, false, 0, 0, 0, 0⟩

structure Notify where
  ord : Nat
  obj : Nat
  thr : BitVec 64
  sent : Bool
  born : Nat
  deriving DecidableEq, Repr

structure Syn where
  obj : Sparse SyncObj
  nq : List Notify
  nextOrd : Nat
  /-- First clk in which the next object may take a notify entry (R281: one for each clk). -/
  enqAt : Nat
  deriving DecidableEq, Repr

/-! ## Mailboxes (14) -/

inductive ChSt where
  | idle | posted | running | done
  deriving DecidableEq, Repr

/-- A command that firmware has taken: OPCODE, tag and the 52 payload bytes. -/
structure RunCmd where
  op : BitVec 16
  tag : BitVec 16
  pay : BitVec 416
  /-- Its final step has been made; a long command then waits for its completion. -/
  started : Bool
  deriving DecidableEq, Repr

structure Chan where
  cmd : BitVec 512
  rsp : BitVec 512
  st : ChSt
  overrun : Bool
  wrLost : Bool
  code : BitVec 8
  seq : BitVec 16
  /-- Re-reads made of a command that failed check 1, and the clk of the next (R330). -/
  rereads : Nat
  rereadAt : Option Nat
  run : Option RunCmd
  deriving DecidableEq, Repr

structure Mbx where
  ch0 : Chan
  ch1 : Chan
  ch2 : Chan
  ch3 : Chan
  /-- The channel taken last (R329). -/
  last : BitVec 2
  deriving DecidableEq, Repr

/-! ## Event unit (16) -/

structure EvtSrc where
  pend : Bool
  mask : Bool
  active : Bool
  claimant : Option Bank
  occ : BitVec 8
  age : BitVec 8
  info : BitVec 64
  cfg : BitVec 32
  /-- TARGET and BANK in force: a change applies from the next clk (R374). -/
  routed : BitVec 4
  /-- It was completed in this clk: it is eligible again from the next (R375). -/
  freed : Bool
  /-- Occurrences of this clk, which act at its end, after a claim or a clear (R9, R375), with the INFO of the first. -/
  fresh : Nat
  freshInfo : BitVec 64
  deriving DecidableEq, Repr

structure BankSt where
  en : Bool
  signalled : Bool
  sent : BitVec 16
  deriving DecidableEq, Repr

structure Evt where
  src : Sparse EvtSrc
  /-- Banks by number: 2t + b for targets 0 to 4, 10 for the private bank. -/
  bank : Sparse BankSt
  /-- The winner of each bank that has one, and the clk since which it has been the winner (R370). -/
  cand : Sparse (Nat × Nat)
  /-- Filter outputs of TICK_LOST, mp_alert, bor_det (R368). -/
  filtTick : Bool
  filtAlert : Bool
  filtBor : Bool
  /-- Clk of the latest change of a filter output, by event ID (R368). -/
  filtAt : Sparse Nat
  deriving DecidableEq, Repr

/-! ## Counters, trace, telemetry (19, 15) -/

/-- The filters of a counter block or of the trace unit (R430). -/
structure Filt where
  rid : BitVec 32
  cls : BitVec 32
  base : BitVec 64
  lim : BitVec 64
  deriving DecidableEq, Repr

structure Pmc where
  /-- Live counts, captures and snapshots by 8 * block + counter. -/
  cnt : Sparse (BitVec 48)
  cap : Sparse (BitVec 48)
  snap : Sparse (BitVec 48)
  /-- PMC_CFG bits EN (0), FILT (1), OVF (3). -/
  cfg : Sparse (BitVec 4)
  /-- Counts taken in this clk, and counters that wrapped in it: a clear of the same clk leaves them (R9, R431). -/
  now : Sparse Nat
  wrapped : List Nat
  /-- Unit 5 is held in block reset: nothing is counted (R414, R440). -/
  held : Bool
  filt : Sparse Filt
  k : BitVec 8
  since : Nat
  /-- Snapshot units still to run: next block, 12 when none. -/
  units : Nat
  capGtime : BitVec 64
  skipped : BitVec 16
  gen : BitVec 32
  gtime : BitVec 64
  slot0 : BitVec 32
  slot1 : BitVec 32
  slot2 : BitVec 32
  slotGtime : BitVec 64
  deriving DecidableEq, Repr

structure Trc where
  ctrl : BitVec 7
  filt : Filt
  buf : List (BitVec 128)
  /-- Records of the happenings of this clk, which enter the buffer in ascending TYPE (R437). -/
  fresh : List (BitVec 128)
  lost : Nat
  lostG : BitVec 48
  dropped : BitVec 16
  /-- Unit 4 is held in block reset: no record is made (R414, R440). -/
  held : Bool
  deriving DecidableEq, Repr

/-- One telemetry set (R349, R364). -/
structure TelSet where
  temp : List (BitVec 16)
  droop : List (BitVec 32)
  corr : BitVec 32
  uncorr : BitVec 32
  metaErr : BitVec 32
  parity : BitVec 32
  lap : BitVec 32
  lines : BitVec 32
  cals : BitVec 32
  calPend : BitVec 64
  deriving DecidableEq, Repr

structure Tel where
  period : BitVec 8
  since : Nat
  /-- Telemetry units still to run: next set, 4 when none. -/
  units : Nat
  gtimeNext : BitVec 64
  gen : BitVec 32
  gtime : BitVec 64
  /-- Live counts, the set being sampled, and the registers. -/
  live : TelSet
  next : TelSet
  regs : TelSet
  sampled : Nat
  deriving DecidableEq, Repr

/-! ## Repair and Marver (17) -/

/-- A row (KIND 0) or column group (KIND 1) of one subarray. -/
structure Place where
  tier : Nat
  bank : Nat
  sub : Nat
  kind : Nat
  index : Nat
  deriving DecidableEq, Repr

structure Rep where
  /-- Repair map: place and the spare it is served by (R388). -/
  map : List (Place × Nat)
  /-- Spares marked bad: the place with INDEX = the spare's number. -/
  bad : List Place
  retired : List Place
  /-- Fault log, oldest first, each entry with the column group kept for the merge (R391). -/
  log : List (Place × Nat)
  lastRemoved : Option Place
  applied : BitVec 32
  scrubEn : Bool
  calEn : Bool
  calStep : Nat
  maxUnits : Nat
  unit : Nat
  /-- Frame number of the boundary before unit 0. -/
  lapFrom : Nat
  lapDone : Bool
  lastLap : BitVec 32
  calPend : BitVec 64
  calTemp : Sparse (BitVec 16)
  /-- The bank under calibration, and the units it has had (R402). -/
  calBank : Option Nat
  calUnits : Nat
  /-- Sense settings found by calibration; a bank not listed uses its fuse default (R402). -/
  sense : Sparse Nat
  unitsFrame : Nat
  deriving DecidableEq, Repr

/-! ## Background walks (14 R338) -/

inductive WalkKind where
  /-- PART_SET: withdrawn ways, the set after, and the table changes that take effect after completion (R136). -/
  | part (ways : BitVec 16) (newSet : BitVec 16) (groups : List (Nat × Group)) (rt : List (Nat × BitVec 4))
  | bind (region : Nat)
  | unbind (region : Nat)
  | flush (op : Nat) (whole : Bool) (base : Nat) (lines : Nat)
  | save (region first m : Nat) (image : BitVec 52) (cls : BitVec 6) (clear : Bool)
  | restore (region first : Nat) (image : BitVec 52) (cls : BitVec 6)
  | drain (region : Nat)
  | move (p : Place) (spare : Nat)
  | retire (p : Place)
  deriving DecidableEq, Repr

structure Walk where
  kind : WalkKind
  op : BitVec 16
  /-- The channel that awaits its completion; none after a reset that reached the Lehr (R332). -/
  ch : Option (BitVec 2)
  /-- Held: taken in QUIESCING (R340), or at a warm reset until the sweep ends (R412). -/
  held : Bool
  started : Bool
  cur : Nat
  pass : Nat
  units : Nat
  total : Nat
  /-- Lines written back, armed contexts, or lines moved, as the response reports. -/
  count : Nat
  /-- Eviction-buffer order numbers whose memory write must complete first (R132). -/
  evs : List Nat
  /-- Image lines fetched (R258): image line number, data and poison. -/
  img : Sparse Line
  m : Nat
  c : Nat
  /-- An image access was answered with ERROR (R260). -/
  failed : Bool
  /-- Status with which it will complete (R336). -/
  status : BitVec 8
  startGtime : BitVec 64
  /-- Locations of dirty lines found by a visit: each takes one further unit, in which it is read for its write-back (R131, R135,
  R150); in a retirement, each becomes RETIRED once its line has been written (R396). -/
  todo : List Nat
  /-- The last visit skipped an open line and is made again in the next unit (R131). -/
  again : Bool
  /-- Units beyond the fixed figure of R338: one for each dirty line, directory eviction and revisit. -/
  extra : Nat
  deriving DecidableEq, Repr

/-! ## The switched region and the whole state -/

structure Sw where
  life : Life
  port : Port
  q : Queues
  pipe : Pipe
  arr : Arr
  map : MapSt
  home : Home
  cache : Cache
  mp : Mp
  fr : Frame
  qos : Qos
  pin : Pin
  gth : GthSt
  syn : Syn
  mbx : Mbx
  evt : Evt
  pmc : Pmc
  trc : Trc
  tel : Tel
  rep : Rep
  walk : Option Walk
  deriving DecidableEq, Repr

/-- The state of one slice, and the queue of commands that wait. -/
structure State where
  params : Params
  ao : AlwaysOn
  sw : Sw
  pending : List Instr
  deriving DecidableEq, Repr

/-- Why the machine stops. -/
inductive Fault where
  /-- Raised by MP_READ_BEAT when the memory controller breaks R48 (a beat out of order): the manual states no outcome
  (R5). Safe: the model stops where the hardware goes on with an unspecified result. -/
  | unspecified
  deriving DecidableEq, Repr

/-- Why the machine refuses a command. -/
inductive Refusal where
  /-- The command has no meaning in the model yet. Raised only by Dispatch. Safe. -/
  | notModelled (mnemonic : String)
  deriving DecidableEq, Repr

/-! ## Reset -/

/-- Default instantiation parameters (DESIGN CHOICE, log 4); every CLAMP_ parameter has its default 0 (R62). -/
def Params.default : Params :=
  ⟨0, 0x400, 0x10000000, 0x10020000, 0x14000000, 0x18000000, 0x18000040, 0x18000080, 0x180000C0, 100,
   ⟨0, 0, 0, 0, 0, 0, 0, 0, false, false, 0, 0, false, 0, 0, false, 0, 0, 0, false, 0, false, 0, false⟩⟩

/-- A tier without power (R422). -/
def Tier.off : Tier := ⟨.off, false, false, 0, 0, false, none⟩

/-- Reset value of the domain record (R357). -/
def DomRec.clear : DomRec := ⟨false, false, 0, 0, 0⟩

/-- The always-on region and the initialised backup domain after a release of cause 1 with vbak lost (R360, R361). -/
def AlwaysOn.reset : AlwaysOn :=
  { hold := none, asleep := false, sleepReq := false, sleepAck := false, domFatalOut := false, rstReqOut := false
    dom := DomRec.clear, cause := ⟨1, 0, 0⟩, lock := false, counts := List.replicate 8 0, counted := [], mode := 1, bakLost := true
    lehrEpoch := 0, hostEpoch := List.replicate 4 0, tierOff := 0, tiers := List.replicate 4 Tier.off
    lastTransition := none, moving := none, refClk := 0, swReset := [], blockHolds := []
    sclk := ⟨0, 0, 0⟩, pinLow := false }

/-- Firmware state after a cold reset: the SRAM is clear (R324). -/
def Fw.reset : Fw := ⟨none, [], [], false, false, 0, 0, 0, 0, 0, 0, 0⟩

/-- Lifecycle after a reset of cause 1 or 2: BOOT, Lehr held, fuse read due (R321, R386). -/
def Life.reset : Life :=
  { st := .boot, safeCause := 0, agents := 0, snpExp := 0, lehrUp := false
    fuse := ⟨true, 0, false, 0⟩, sweep := none, fw := Fw.reset, wdog := none, wdogWarned := false, filled := 0
    warm := false
    drain := none, fatal := none, watch := 0, quiescing := none, domClr := none }

/-- The port in reset: link down, no credit anywhere (R35). -/
def Port.reset : Port :=
  ⟨false, ⟨0, 0, 0, 0, 0⟩, [], [], ⟨0, 0, 0, 0, 0, 0⟩, none, none, none, none, none, none, .full, false⟩

/-- The port when the link has risen at clk `c`: isolation released, eight IO credits to return (R32, R36). -/
def Port.linked (c : Nat) : Port :=
  { Port.reset with linkUp := true, isolate := .none, crdDue := (List.range 8).map fun i => (Lane.io, c + 1 + i) }

/-- Empty input queues. -/
def Queues.reset : Queues := ⟨[], [], [], [], [], [], none, 0⟩

/-- Empty pipeline. -/
def Pipe.reset : Pipe := ⟨[], [], [], [], [], [], [], [], 0, [], [], [], [], 0, 0⟩

/-- The store as the zero fill leaves it (R389; before the fill: log 5). -/
def Arr.reset : Arr := ⟨[], [], [], [], [], [], 0, [], []⟩

/-- No map (R15). -/
def MapSt.reset : MapSt := ⟨false, [], [], [], []⟩

/-- An empty home. -/
def Home.reset : Home := ⟨[], [], [], 0⟩

/-- The default group entry: mask 0, prefetch OFF (R115). -/
def Group.none : Group := ⟨0, 0⟩

/-- Allocation tables of R115; buffers and detectors empty. -/
def Cache.reset : Cache :=
  ⟨0xFFFF, .none, [(0, ⟨0xFFFF, 0⟩)], [], [], [], [], [], [], [], [], 0⟩

/-- A clear stride detector. -/
def Det.clear : Det := ⟨0, 0, 0⟩

/-- The memory port after a reset of cause 1 or 2 (R309: budgets 0). -/
def Mp.reset : Mp := ⟨0, 0, 0, 0, 0, [], none, none, [], [], [], none, [], 0, [], []⟩

/-- Empty slot totals. -/
def SlotTot.zero : SlotTot := ⟨0, 0, 0, 0, 0, 0, 0⟩

/-- The frame unit after cold reset (R85, R91). -/
def Frame.reset : Frame :=
  { clk := 0, pos := 0, due := false, cut := none, len := 1000, lenNext := none, frameNo := 0, gtime := 0, gcap1 := 0
    gcap2 := 0, bGtime := 0, copyA := [], copyB := [], active := .a, switch := none, everSwitched := false
    minPtr := 0, bePtr := 0, granted := [], ramp := 0, tickLost := false, tickLostAt := 0, tickFrom := none, aligned := false
    slips := 0, lastSlip := 0, now := SlotTot.zero, report := [] }

/-- The default class parameters (R300). -/
def ClassPar.default : ClassPar := ⟨0, 0, 0, 128, false⟩

/-- QoS after cold reset. -/
def Qos.reset : Qos := ⟨[], [], false, 0, 0, 0, none⟩

/-- No region; aperture disabled (R152). -/
def Pin.reset : Pin := ⟨[], 0, 0, [], [], 0⟩

/-- No template; nothing in flight. -/
def GthSt.reset : GthSt := ⟨[], [], [], [], 0, []⟩

/-- Every field of every object 0 (R279). -/
def Syn.reset : Syn := ⟨[], [], 0, 0⟩

/-- A channel at its reset values (R325). -/
def Chan.reset : Chan := ⟨0, 0, .idle, false, false, 0, 0, 0, none, none⟩

/-- The four channels; the scan starts with channel 0 (log 26). -/
def Mbx.reset : Mbx := ⟨Chan.reset, Chan.reset, Chan.reset, Chan.reset, 3⟩

/-- EVT_SRC_CFG at its reset value: COAL_COUNT 1, FILT 7 (R374). -/
def EvtSrc.cfgReset : BitVec 32 := 0x07000100

/-- An event source after cold reset: masked (R374). -/
def EvtSrc.reset : EvtSrc := ⟨false, true, false, none, 0, 0, 0, EvtSrc.cfgReset, 0, false, 0, 0⟩

/-- A bank after cold reset. -/
def BankSt.reset : BankSt := ⟨false, false, 0⟩

/-- The event unit after cold reset. -/
def Evt.reset : Evt := ⟨[], [], [], false, false, false, []⟩

/-- Filters at their reset values: every request matches (R435). -/
def Filt.reset : Filt := ⟨0x0FFF0000, 0x000F3F00, 0, 0x000FFFFFFFFFFF80⟩

/-- Counters after cold reset. -/
def Pmc.reset : Pmc := ⟨[], [], [], [], [], [], false, [], 0, 0, 12, 0, 0, 0, 0, 0, 0, 0, 0⟩

/-- Trace after cold reset. -/
def Trc.reset : Trc := ⟨0, Filt.reset, [], [], 0, 0, 0, false⟩

/-- A telemetry set of zeros. -/
def TelSet.zero : TelSet := ⟨List.replicate 10 0, List.replicate 5 0, 0, 0, 0, 0, 0, 0, 0, 0⟩

/-- Telemetry after cold reset: PERIOD 0x10 (R363). -/
def Tel.reset : Tel := ⟨0x10, 0, 4, 0, 0, 0, TelSet.zero, TelSet.zero, TelSet.zero, 0⟩

/-- Repair and Marver after a reset of cause 1 or 2 (R399, R401). -/
def Rep.reset : Rep :=
  { map := [], bad := [], retired := [], log := [], lastRemoved := none, applied := 0, scrubEn := true, calEn := true
    calStep := 4, maxUnits := 0, unit := 0, lapFrom := 0, lapDone := false, lastLap := 0
    calPend := BitVec.allOnes 64, calTemp := [], calBank := none, calUnits := 0, sense := [], unitsFrame := 0 }

/-- The switched region right after it leaves a reset of cause 1. -/
def Sw.reset : Sw :=
  { life := Life.reset, port := Port.linked 0, q := Queues.reset, pipe := Pipe.reset, arr := Arr.reset
    map := MapSt.reset, home := Home.reset, cache := Cache.reset, mp := Mp.reset, fr := Frame.reset, qos := Qos.reset
    pin := Pin.reset, gth := GthSt.reset, syn := Syn.reset, mbx := Mbx.reset, evt := Evt.reset, pmc := Pmc.reset
    trc := Trc.reset, tel := Tel.reset, rep := Rep.reset, walk := none }

/-- The machine right after the release of a power-on reset whose backup supply had been lost (R325, R360, R361, R386):
fuse read due, tiers off, Lehr held, ky_link_up just risen, no command waiting. -/
def State.reset : State := ⟨Params.default, AlwaysOn.reset, Sw.reset, []⟩

end Sys2Proof.Machine
end

