-- ==== Sys2Proof/Machine/Flits.lean ====
section
/-! DEFINITION. Flit layouts of the KY port: parity, decoding of inbound flits, encoding of outbound flits (02, R38 to R46). -/
namespace Sys2Proof.Machine

/-- The even-parity bit of byte `k` of a field (R38). -/
def byteParity (x : Nat) (k : Nat) : Bool :=
  let b := (x >>> (8 * k)) % 256
  let b := b ^^^ (b >>> 4)
  let b := b ^^^ (b >>> 2)
  let b := b ^^^ (b >>> 1)
  b % 2 == 1

/-- Parity bits of the first `n` bytes of a field, bit `k` for byte `k` (R38). -/
def parityOf (n : Nat) (x : Nat) : Nat :=
  (List.range n).foldl (fun a k => if byteParity x k then a ||| (1 <<< k) else a) 0

/-- The bytes of a field of `n` bytes that fail parity (R38). -/
def badBytes (n : Nat) (x par : Nat) : List Nat :=
  (List.range n).filter fun k => byteParity x k != par.testBit k

/-- REQ header (R39). -/
def reqOf (f : BitVec 144) : Req :=
  { op := fld f 0 8, txn := fld f 8 12, src := fld f 20 12, addr := fld f 32 52, size := fld f 84 3, qos := fld f 87 6
    deadline := fld f 93 16, scope := fld f 109 2, priv := fld f 111 2, domain := fld f 113 8, dlValid := bitAt f 121
    streaming := bitAt f 122, noAlloc := bitAt f 123 }

/-- Every byte of a REQ flit passes parity. -/
def reqParityOk (f : BitVec 144) : Bool := (badBytes 16 (fldN f 0 128) (fldN f 128 16)).isEmpty

/-- DAT flit (R44). -/
def datOf (f : BitVec 1224) : Dat :=
  { txn := fld f 1152 12, tgt := fld f 1164 12, src := fld f 1176 12, poison := fld f 1188 8, dop := fld f 1196 4
    state := fld f 1200 3, data := fld f 0 1024 }

/-- Every byte of a DAT flit passes parity. -/
def datParityOk (f : BitVec 1224) : Bool :=
  (badBytes 128 (fldN f 0 1024) (fldN f 1024 128)).isEmpty && (badBytes 8 (fldN f 1152 64) (fldN f 1216 8)).isEmpty

/-- RSP flit (R43). -/
def rspOf (f : BitVec 72) : Rsp :=
  { op := fld f 0 8, txn := fld f 8 12, tgt := fld f 20 12, src := fld f 32 12, status := fld f 44 8, state := fld f 52 3 }

/-- Every byte of an RSP flit passes parity. -/
def rspParityOk (f : BitVec 72) : Bool := (badBytes 8 (fldN f 0 64) (fldN f 64 8)).isEmpty

/-- GTH flit (R45). -/
def gthOf (f : BitVec 1296) : Gth :=
  { op := fld f 0 8, txn := fld f 8 12, src := fld f 20 12, laddr := fld f 32 45, cidx := fld f 77 4, qos := fld f 81 6
    deadline := fld f 87 16, dlValid := bitAt f 103, priv := fld f 104 2, domain := fld f 106 8, poison := fld f 114 8
    payload := fld f 128 1024 }

/-- Every header byte of a GTH flit passes parity. -/
def gthHeaderOk (f : BitVec 1296) : Bool := (badBytes 16 (fldN f 0 128) (fldN f 1152 16)).isEmpty

/-- Payload bytes of a GTH flit that fail parity. -/
def gthBadBytes (f : BitVec 1296) : List Nat := badBytes 128 (fldN f 128 1024) (fldN f 1168 128)

/-- One bit for each 16-byte group that holds one of the bytes. -/
def groupsOf (bytes : List Nat) : BitVec 8 := bytes.foldl (fun p b => p ||| (1#8 <<< (b / 16))) 0

/-- IO flit (R46). -/
def ioOf (f : BitVec 720) : Io :=
  { op := fld f 0 8, txn := fld f 8 12, src := fld f 20 12, addr := fld f 32 52, len := fld f 84 6, priv := fld f 90 2
    domain := fld f 92 8, status := fld f 100 8, payload := fld f 128 512 }

/-- Header bytes of an IO flit that fail parity. -/
def ioBadHeader (f : BitVec 720) : List Nat := badBytes 16 (fldN f 0 128) (fldN f 640 16)

/-- Payload bytes of an IO flit that fail parity. -/
def ioBadBytes (f : BitVec 720) : List Nat := badBytes 64 (fldN f 128 512) (fldN f 656 64)

/-- The RSP flit of a response, with generated parity (R38, R43). -/
def rspFlit (m : Rsp) : BitVec 72 :=
  let h : Nat := m.op.toNat ||| (m.txn.toNat <<< 8) ||| (m.tgt.toNat <<< 20) ||| (m.src.toNat <<< 32)
    ||| (m.status.toNat <<< 44) ||| (m.state.toNat <<< 52)
  BitVec.ofNat 72 (h ||| (parityOf 8 h <<< 64))

/-- The DAT flit of a message (R38, R44). -/
def datFlit (m : Dat) : BitVec 1224 :=
  let h : Nat := m.txn.toNat ||| (m.tgt.toNat <<< 12) ||| (m.src.toNat <<< 24) ||| (m.poison.toNat <<< 36)
    ||| (m.dop.toNat <<< 44) ||| (m.state.toNat <<< 48)
  BitVec.ofNat 1224 (m.data.toNat ||| (parityOf 128 m.data.toNat <<< 1024) ||| (h <<< 1152) ||| (parityOf 8 h <<< 1216))

/-- The SNP flit of a snoop (R38, R42). -/
def snpFlit (m : Snp) : BitVec 144 :=
  let h : Nat := m.op.toNat ||| (m.txn.toNat <<< 8) ||| (m.tgt.toNat <<< 20) ||| (m.fwdSrc.toNat <<< 32)
    ||| (m.fwdTxn.toNat <<< 44) ||| (m.laddr.toNat <<< 56) ||| (m.fwdOk.toNat <<< 101)
  BitVec.ofNat 144 (h ||| (parityOf 16 h <<< 128))

/-- The REQ flit of a request of the slice's own (R38, R39). -/
def reqFlit (m : Req) : BitVec 144 :=
  let h : Nat := m.op.toNat ||| (m.txn.toNat <<< 8) ||| (m.src.toNat <<< 20) ||| (m.addr.toNat <<< 32)
    ||| (m.size.toNat <<< 84) ||| (m.qos.toNat <<< 87) ||| (m.deadline.toNat <<< 93) ||| (m.scope.toNat <<< 109)
    ||| (m.priv.toNat <<< 111) ||| (m.domain.toNat <<< 113) ||| (m.dlValid.toNat <<< 121)
    ||| (m.streaming.toNat <<< 122) ||| (m.noAlloc.toNat <<< 123)
  BitVec.ofNat 144 (h ||| (parityOf 16 h <<< 128))

/-- The GTH flit of a forwarded contribution (R38, R45). -/
def gthFlit (m : Gth) : BitVec 1296 :=
  let h : Nat := m.op.toNat ||| (m.txn.toNat <<< 8) ||| (m.src.toNat <<< 20) ||| (m.laddr.toNat <<< 32)
    ||| (m.cidx.toNat <<< 77) ||| (m.qos.toNat <<< 81) ||| (m.deadline.toNat <<< 87) ||| (m.dlValid.toNat <<< 103)
    ||| (m.priv.toNat <<< 104) ||| (m.domain.toNat <<< 106) ||| (m.poison.toNat <<< 114)
  BitVec.ofNat 1296 (h ||| (m.payload.toNat <<< 128) ||| (parityOf 16 h <<< 1152)
    ||| (parityOf 128 m.payload.toNat <<< 1168))

/-- The IO flit of a response, delivery or notify (R38, R46). -/
def ioFlit (m : Io) : BitVec 720 :=
  let h : Nat := m.op.toNat ||| (m.txn.toNat <<< 8) ||| (m.src.toNat <<< 20) ||| (m.addr.toNat <<< 32)
    ||| (m.len.toNat <<< 84) ||| (m.priv.toNat <<< 90) ||| (m.domain.toNat <<< 92) ||| (m.status.toNat <<< 100)
  BitVec.ofNat 720 (h ||| (m.payload.toNat <<< 128) ||| (parityOf 16 h <<< 640) ||| (parityOf 64 m.payload.toNat <<< 656))

/-! Bytes of wide fields, little-endian (R6). -/

/-- Byte `b` of a field. -/
def byteN {n : Nat} (x : BitVec n) (b : Nat) : Nat := (x.toNat >>> (8 * b)) % 256

/-- `n` bytes of a field from byte `b` upward, as a number. -/
def bytesN {w : Nat} (x : BitVec w) (b n : Nat) : Nat := (x.toNat >>> (8 * b)) % 2 ^ (8 * n)

/-- Replace `n` bytes of a field from byte `b` upward. -/
def putBytes {w : Nat} (x : BitVec w) (b n : Nat) (v : Nat) : BitVec w :=
  let mask : Nat := (2 ^ (8 * n) - 1) <<< (8 * b)
  BitVec.ofNat w ((x.toNat &&& (mask ^^^ (2 ^ w - 1))) ||| ((v % 2 ^ (8 * n)) <<< (8 * b)))

end Sys2Proof.Machine
end

