-- ==== Sys2Proof/Machine/Flags.lean ====
section
/-! DEFINITION. Number formats, roundings and accumulators of the Gather unit and of FADD, each with the flags it raises
(09, R220 to R241; 11, R268). -/
namespace Sys2Proof.Machine

/-! ## Decoding (R224) -/

/-- A decoded input: `(-1)^neg × m × 2^e`, an infinity, or a NaN. -/
inductive Num where
  | fin (neg : Bool) (m : Nat) (e : Int)
  | inf (neg : Bool)
  | nan
  deriving DecidableEq, Repr

/-- Decode a floating format with `eb` exponent bits, `M` mantissa bits and the given bias (R224). -/
def floatNum (eb M : Nat) (bias : Int) (hasInf : Bool) (x : Nat) : Num :=
  let t := x % 2 ^ M
  let f := (x >>> M) % 2 ^ eb
  let s := (x >>> (M + eb)) % 2 == 1
  if hasInf && f == 2 ^ eb - 1 then (if t == 0 then .inf s else .nan)
  else if !hasInf && f == 2 ^ eb - 1 && t == 2 ^ M - 1 then .nan
  else if f == 0 then .fin s t (1 - bias - M)
  else .fin s (2 ^ M + t) (f - bias - M)

/-- Two's-complement value of the low `n` bits. -/
def sextN (n x : Nat) : Int :=
  let v := x % 2 ^ n
  if v < 2 ^ (n - 1) then v else (v : Int) - 2 ^ n

/-- Decode an integer input. -/
def intNum (n x : Nat) : Num := let v := sextN n x; .fin (v < 0) v.natAbs 0

/-- Size in bytes of an element of INFMT 0 to 6 (R214). -/
def elemSize (infmt : BitVec 3) : Nat :=
  match infmt.toNat with
  | 0 => 4 | 1 => 2 | 2 => 2 | 3 => 1 | 4 => 1 | 5 => 1 | _ => 4

/-- Decode one element of INFMT 0 to 6 (R224). -/
def numOf (infmt : BitVec 3) (x : Nat) : Num :=
  match infmt.toNat with
  | 0 => floatNum 8 23 127 true x
  | 1 => floatNum 8 7 127 true x
  | 2 => floatNum 5 10 15 true x
  | 3 => floatNum 4 3 7 false x
  | 4 => floatNum 5 2 15 true x
  | 5 => intNum 8 x
  | _ => intNum 32 x

/-! ## Rounding -/

/-- `n / d` rounded to nearest, ties to even. -/
def rneDiv (n d : Nat) : Nat :=
  let q := n / d
  let r := n % d
  if 2 * r > d || (2 * r == d && q % 2 == 1) then q + 1 else q

/-- `2^e` for a non-negative exponent, 1 otherwise. -/
def pow2 (e : Int) : Nat := 2 ^ e.toNat

/-- `m × 2^e` rounded to nearest even, and whether it was inexact. -/
def rneScale (m : Nat) (e : Int) : Nat × Bool :=
  let n := m * pow2 e
  let d := pow2 (-e)
  (rneDiv n d, n % d != 0)

/-- ⌊log2 (n / d)⌋ for n, d ≥ 1. -/
def floorLog2 (n d : Nat) : Int :=
  let p : Int := (Nat.log2 n : Int) - Nat.log2 d
  if n * pow2 (-p) ≥ d * pow2 p then p else p - 1

/-- An output format: exponent bits, M, emin and emax of R240. -/
structure Fmt where
  eb : Nat
  M : Nat
  emin : Int
  emax : Int
  deriving DecidableEq, Repr

def Fmt.fp32 : Fmt := ⟨8, 23, -126, 127⟩
def Fmt.bf16 : Fmt := ⟨8, 7, -126, 127⟩
def Fmt.fp16 : Fmt := ⟨5, 10, -14, 15⟩
def Fmt.fp64 : Fmt := ⟨11, 52, -1022, 1023⟩

/-- Sign bit of a format in place. -/
def Fmt.sign (f : Fmt) (neg : Bool) : Nat := if neg then 2 ^ (f.M + f.eb) else 0

/-- Infinity of a format. -/
def Fmt.inf (f : Fmt) (neg : Bool) : Nat := f.sign neg + (2 ^ f.eb - 1) * 2 ^ f.M

/-- The canonical quiet NaN of a format. -/
def Fmt.qnan (f : Fmt) : Nat := f.inf false + 2 ^ (f.M - 1)

/-- round_once of R240: the encoding, and ROVF. -/
def roundOnce (neg : Bool) (n d : Nat) (k : Int) (f : Fmt) : Nat × Bool :=
  if n = 0 then (0, false) else
  let p := floorLog2 n d
  let q := max (p + k) f.emin - f.M
  let e := k - q
  let r := rneDiv (n * pow2 e) (d * pow2 (-e))
  let (r, q) := if r = 2 ^ (f.M + 1) then (2 ^ f.M, q + 1) else (r, q)
  if r = 0 then (f.sign neg, false)
  else if q + f.M > f.emax then (f.inf neg, true)
  else if r < 2 ^ f.M then (f.sign neg + r, false)
  else (f.sign neg + (q + f.M + f.emax).toNat * 2 ^ f.M + (r - 2 ^ f.M), false)

/-- The exact value of a finite number as an integer at exponent `e` (which must not exceed its own). -/
def atExp (neg : Bool) (m : Nat) (me e : Int) : Int :=
  let v : Int := m * pow2 (me - e)
  if neg then -v else v

/-- FADD of R268: the exact sum rounded once; zero, Inf and NaN as its table states. -/
def fadd (f : Fmt) (x y : Nat) : Nat :=
  let dec := floatNum f.eb f.M f.emax true
  match dec x, dec y with
  | .nan, _ => f.qnan
  | _, .nan => f.qnan
  | .inf a, .inf b => if a == b then f.inf a else f.qnan
  | .inf a, _ => f.inf a
  | _, .inf b => f.inf b
  | .fin a m e, .fin b m' e' =>
    let k := min e e'
    let v := atExp a m e k + atExp b m' e' k
    if v = 0 then f.sign (a && b) else (roundOnce (v < 0) v.natAbs 1 k f).1

/-- FP32 subtraction, rounded to nearest even. -/
def fsub (x y : Nat) : Nat := fadd Fmt.fp32 x (y ^^^ 0x80000000)

/-- Inf or NaN in FP32. -/
def notFinite32 (x : Nat) : Bool := (x >>> 23) % 256 == 255

/-- NaN in FP32. -/
def isNan32 (x : Nat) : Bool := notFinite32 x && x % 2 ^ 23 != 0

/-! ## EXACT addends (R225, R228) -/

/-- Bits of the flags that one input raises. -/
structure InFlags where
  loss : Bool
  ovf : Bool
  deriving DecidableEq, Repr

/-- Clamp an exact addend to 96 bits (R225). -/
def clamp96 (a : Int) (loss : Bool) : Int × InFlags :=
  if a > 2 ^ 95 - 1 then (2 ^ 95 - 1, ⟨loss, true⟩)
  else if a < -(2 ^ 95) then (-(2 ^ 95), ⟨loss, true⟩)
  else (a, ⟨loss, false⟩)

/-- The addend of an input (R225). -/
def addend (anchor : Int) : Num → Int × InFlags
  | .nan => (0, ⟨false, true⟩)
  | .inf neg => (if neg then -(2 ^ 95) else 2 ^ 95 - 1, ⟨false, true⟩)
  | .fin neg m e =>
    let (r, inexact) := rneScale m (e + 63 - anchor)
    clamp96 (if neg then -(r : Int) else r) inexact

/-- The addend of an input's square (R228). -/
def sqAddend (sqanchor : Int) : Num → Int × InFlags
  | .nan => (0, ⟨false, true⟩)
  | .inf _ => (2 ^ 95 - 1, ⟨false, true⟩)
  | .fin _ m e =>
    let (r, inexact) := rneScale (m * m) (2 * e + 63 - sqanchor)
    clamp96 r inexact

/-- The MAXEXP contribution of an input (R220); 0 when it leaves MAXEXP unchanged. -/
def maxExpOf : Num → Nat
  | .fin _ m e => if m = 0 then 0 else (max 1 (min 511 ((Nat.log2 m : Int) + e + 256))).toNat
  | _ => 0

/-! ## Accumulators (R222, R223, R226) -/

/-- One EXACT accumulator in the datapath: six limbs, six carry counts, NEG. -/
structure Acc where
  f : List Nat
  c : List Nat
  neg : Nat
  deriving DecidableEq, Repr

/-- Unpack the 128 stored bits (R222). -/
def accOf (b : Nat) : Acc :=
  ⟨(List.range 6).map fun l => (b >>> (16 * l)) % 2 ^ 16, (List.range 6).map fun l => (b >>> (96 + 4 * l)) % 16,
   (b >>> 120) % 32⟩

/-- Pack into 128 bits (R222). -/
def accBits (a : Acc) : Nat :=
  let f := (a.f.zipIdx).foldl (fun n p => n ||| ((p.1 % 2 ^ 16) <<< (16 * p.2))) 0
  let c := (a.c.zipIdx).foldl (fun n p => n ||| ((p.1 % 16) <<< (96 + 4 * p.2))) 0
  f ||| c ||| ((a.neg % 32) <<< 120)

/-- The integer an accumulator holds (R223). -/
def accValue (a : Acc) : Int :=
  let f : Nat := (a.f.zipIdx).foldl (fun n p => n + p.1 * 2 ^ (16 * p.2)) 0
  let c : Nat := (a.c.zipIdx).foldl (fun n p => n + p.1 * 2 ^ (16 * p.2 + 16)) 0
  (f : Int) + c - a.neg * 2 ^ 96

/-- exact_update of R226. -/
def exactUpdate (a : Acc) (x : Int) : Acc :=
  let u : Nat := (x % 2 ^ 96).toNat
  let t := (a.f.zipIdx).map fun p => p.1 + (u >>> (16 * p.2)) % 2 ^ 16
  ⟨t.map (· % 2 ^ 16), (a.c.zip t).map fun p => p.1 + p.2 / 2 ^ 16, if x < 0 then a.neg + 1 else a.neg⟩

/-- The canonical accumulator of a value in range (R223). -/
def canonical (v : Int) : Acc :=
  let u : Nat := (v % 2 ^ 96).toNat
  ⟨(List.range 6).map fun l => (u >>> (16 * l)) % 2 ^ 16, List.replicate 6 0, if v < 0 then 1 else 0⟩

/-- resolve of R226, and whether it saturated (OVF). -/
def resolve (a : Acc) : Acc × Bool :=
  let (v, fl) := clamp96 (accValue a) false
  (canonical v, fl.ovf)

/-! ## TREE16 (R232) -/

/-- two_sum of R232. -/
def twoSum (a b : Nat) : Nat × Nat :=
  let t := fadd Fmt.fp32 a b
  if notFinite32 t then (t, 0) else
  let bb := fsub t a
  (t, fadd Fmt.fp32 (fsub a (fsub t bb)) (fsub b bb))

/-- One level of the fold: neighbours at distance one in the list of (s, c) pairs. -/
def treeLevel : List (Nat × Nat) → List (Nat × Nat)
  | (s, c) :: (s', c') :: l =>
    let (t, e) := twoSum s s'
    (t, fadd Fmt.fp32 (fadd Fmt.fp32 c c') e) :: treeLevel l
  | l => l

/-- tree16 of R232 over the 16 slot values of one element. -/
def tree16 (x : List Nat) : Nat :=
  match treeLevel (treeLevel (treeLevel (treeLevel (x.map fun v => (v, 0))))) with
  | (s, c) :: _ => fadd Fmt.fp32 s c
  | [] => 0

/-- The slot value of an input (R231): FP32, exact; the canonical NaN for a NaN. -/
def toFp32 : Num → Nat
  | .nan => 0x7FC00000
  | .inf neg => Fmt.fp32.inf neg
  | .fin neg m e => if m = 0 then Fmt.fp32.sign neg else (roundOnce neg m 1 e Fmt.fp32).1

/-- Readout of a TREE16 fold result in a format, with ROVF (R232). -/
def treeReadout (f : Fmt) (x : Nat) : Nat × Bool :=
  match floatNum 8 23 127 true x with
  | .nan => (f.qnan, false)
  | .inf neg => (f.inf neg, false)
  | .fin neg m e => if m = 0 then (f.sign neg, false) else roundOnce neg m 1 e f

/-! ## MINMAX and INT (R233, R234) -/

/-- A number that orders FP32 encodings numerically, with -0 below +0. -/
def fpKey (x : Nat) : Nat := if x ≥ 2 ^ 31 then 2 ^ 32 - 1 - x else x + 2 ^ 31

/-- The update of one MINMAX element with floating inputs (R234). -/
def minmaxFp (isMax : Bool) (held x : Nat) : Nat :=
  if isNan32 held || isNan32 x then 0x7FC00000
  else if isMax then (if fpKey x > fpKey held then x else held)
  else (if fpKey x < fpKey held then x else held)

/-- The update of one MINMAX element with integer inputs (R234). -/
def minmaxInt (isMax : Bool) (held x : Nat) : Nat :=
  if isMax then (if sextN 32 x > sextN 32 held then x else held)
  else (if sextN 32 x < sextN 32 held then x else held)

/-- The update of one INT element, and whether it clamped (R233). -/
def intAdd (saturating : Bool) (held x : Nat) : Nat × Bool :=
  if saturating then
    let v := sextN 32 held + sextN 32 x
    if v > 2 ^ 31 - 1 then (0x7FFFFFFF, true)
    else if v < -(2 ^ 31) then (0x80000000, true)
    else ((v % 2 ^ 32).toNat, false)
  else ((held + x) % 2 ^ 32, false)

/-! ## MEANVAR (R241) -/

/-- meanvar of R241: mean, variance, ROVF, NEGVAR. -/
def meanvar (vs vq : Int) (n : Nat) (anchor sqanchor : Int) (f : Fmt) : Nat × Nat × Bool × Bool :=
  let a := anchor - 63
  let dq := sqanchor - 63 - 2 * a
  let (mean, o1) := roundOnce (vs < 0) vs.natAbs n a f
  let z : Int := n * vq * pow2 dq - vs * vs
  let (z, neg) := if z < 0 then (0, true) else (z, false)
  let (var, o2) := roundOnce false z.toNat (n * n) (2 * a) f
  (mean, var, o1 || o2, neg)

/-! ## Atomic operations (R265) -/

/-- The new target value of atomic `op` (0 to 10) on `n` bytes: old value `t`, operands `x` and `y` (R265). -/
def atomicNew (op n t x y : Nat) : Nat :=
  let m := 2 ^ (8 * n)
  match op with
  | 0 => (t + x) % m
  | 1 => (t + (m - x % m)) % m
  | 2 => if sextN (8 * n) x < sextN (8 * n) t then x else t
  | 3 => if sextN (8 * n) x > sextN (8 * n) t then x else t
  | 4 => t &&& x
  | 5 => t ||| x
  | 6 => t ^^^ x
  | 7 => x
  | 8 => if t = x then y else t
  | 9 => fadd Fmt.fp32 t x
  | _ => fadd Fmt.bf16 t x

end Sys2Proof.Machine
end

