-- ==== Sys2Proof/Machine/Ops.lean ====
section
/-! DEFINITION. Named operations over the state: updates of one group, credits, events, counters, trace, responses,
addresses, lines, tags, codeword checks, regions, and the declaration of a dead domain. -/
namespace Sys2Proof.Machine

/-! ## Updates of one group -/

def Sw.onLife (s : Sw) (f : Life → Life) : Sw := { s with life := f s.life }
def Sw.onPort (s : Sw) (f : Port → Port) : Sw := { s with port := f s.port }
def Sw.onQ (s : Sw) (f : Queues → Queues) : Sw := { s with q := f s.q }
def Sw.onPipe (s : Sw) (f : Pipe → Pipe) : Sw := { s with pipe := f s.pipe }
def Sw.onArr (s : Sw) (f : Arr → Arr) : Sw := { s with arr := f s.arr }
def Sw.onMap (s : Sw) (f : MapSt → MapSt) : Sw := { s with map := f s.map }
def Sw.onHome (s : Sw) (f : Home → Home) : Sw := { s with home := f s.home }
def Sw.onCache (s : Sw) (f : Cache → Cache) : Sw := { s with cache := f s.cache }
def Sw.onMp (s : Sw) (f : Mp → Mp) : Sw := { s with mp := f s.mp }
def Sw.onFr (s : Sw) (f : Frame → Frame) : Sw := { s with fr := f s.fr }
def Sw.onQos (s : Sw) (f : Qos → Qos) : Sw := { s with qos := f s.qos }
def Sw.onPin (s : Sw) (f : Pin → Pin) : Sw := { s with pin := f s.pin }
def Sw.onGth (s : Sw) (f : GthSt → GthSt) : Sw := { s with gth := f s.gth }
def Sw.onSyn (s : Sw) (f : Syn → Syn) : Sw := { s with syn := f s.syn }
def Sw.onMbx (s : Sw) (f : Mbx → Mbx) : Sw := { s with mbx := f s.mbx }
def Sw.onEvt (s : Sw) (f : Evt → Evt) : Sw := { s with evt := f s.evt }
def Sw.onPmc (s : Sw) (f : Pmc → Pmc) : Sw := { s with pmc := f s.pmc }
def Sw.onTrc (s : Sw) (f : Trc → Trc) : Sw := { s with trc := f s.trc }
def Sw.onTel (s : Sw) (f : Tel → Tel) : Sw := { s with tel := f s.tel }
def Sw.onRep (s : Sw) (f : Rep → Rep) : Sw := { s with rep := f s.rep }
def Sw.onWalk (s : Sw) (f : Option Walk → Option Walk) : Sw := { s with walk := f s.walk }

/-- Update the always-on region. -/
def State.onAo (s : State) (f : AlwaysOn → AlwaysOn) : State := { s with ao := f s.ao }

/-- Update the switched region. -/
def State.onSw (s : State) (f : Sw → Sw) : State := { s with sw := f s.sw }
/-! ## Credits (R33 to R37) -/

def PerIn.get (p : PerIn) : Lane → Nat
  | .io => p.io | .rsp => p.rsp | .dat => p.dat | .gth => p.gth | .req => p.req | .snp => 0

def PerIn.set (p : PerIn) (l : Lane) (n : Nat) : PerIn :=
  match l with
  | .io => { p with io := n } | .rsp => { p with rsp := n } | .dat => { p with dat := n }
  | .gth => { p with gth := n } | .req => { p with req := n } | .snp => p

def PerOut.get (p : PerOut) : Lane → BitVec 6
  | .io => p.io | .rsp => p.rsp | .dat => p.dat | .gth => p.gth | .req => p.req | .snp => p.snp

def PerOut.set (p : PerOut) (l : Lane) (n : BitVec 6) : PerOut :=
  match l with
  | .io => { p with io := n } | .rsp => { p with rsp := n } | .dat => { p with dat := n }
  | .gth => { p with gth := n } | .req => { p with req := n } | .snp => { p with snp := n }

/-- The slice owes one credit on an input lane, to be returned `d` clk from now at the earliest (R37). -/
def Sw.owe (s : Sw) (l : Lane) (d : Nat) : Sw :=
  s.onPort fun p => { p with crdDue := p.crdDue ++ [(l, s.fr.clk + d)] }

/-- The sender spends a credit it holds (R33). -/
def Sw.spendIn (s : Sw) (l : Lane) : Sw :=
  s.onPort fun p => { p with credIn := p.credIn.set l (p.credIn.get l - 1) }

/-- The slice holds an outbound credit on the lane (R35). -/
def Sw.hasOut (s : Sw) (l : Lane) : Bool := s.port.credOut.get l != 0

/-- The slice spends an outbound credit. -/
def Sw.spendOut (s : Sw) (l : Lane) : Sw :=
  s.onPort fun p => { p with credOut := p.credOut.set l (p.credOut.get l - 1) }

/-- Return one credit on each input lane whose pulse is due, the oldest first (R33: one credit for each clk). -/
def Port.pulse (p : Port) (now : Nat) : Port :=
  let lanes := [Lane.io, .rsp, .dat, .gth, .req].filter fun l => p.crdDue.any fun e => e.1 == l && e.2 ≤ now
  { p with
    crdPin := lanes
    crdDue := lanes.foldl (fun q l => dropFirst (fun e => e.1 == l && e.2 ≤ now) q) p.crdDue
    credIn := lanes.foldl (fun c l => c.set l (c.get l + 1)) p.credIn }

/-! ## Trace and events (R367, R436 to R438) -/

/-- The address part of the filters (R430). -/
def Filt.addrOk (f : Filt) (laddr : BitVec 45) : Bool :=
  let a := laddr.toNat * 128
  f.base.toNat ≤ a && a ≤ f.lim.toNat

/-- All four filters (R430). -/
def Filt.ok (f : Filt) (w : Who) : Bool :=
  fldN f.rid 0 12 ≤ w.src.toNat && w.src.toNat ≤ fldN f.rid 16 12 &&
  fldN f.cls 0 6 ≤ w.cls && w.cls ≤ fldN f.cls 8 6 && bitAt f.cls (16 + w.priv.toNat) && f.addrOk w.laddr

/-- Generate a trace record of an enabled type with the payload given in place (R436, R438). -/
def Sw.traceRec (s : Sw) (typ : Nat) (gtime : BitVec 64) (payload : Nat) : Sw :=
  if bitAt s.trc.ctrl 0 && bitAt s.trc.ctrl typ && !s.trc.held then
    let r := BitVec.ofNat 128 (typ ||| (fldN gtime 0 48 <<< 4) ||| payload)
    s.onTrc fun t => { t with fresh := t.fresh ++ [r] }
  else s

/-- A record of type 1 or 6 passes all filters (R438). -/
def Sw.traceReq (s : Sw) (typ : Nat) (w : Who) (payload : Nat) : Sw :=
  if s.trc.filt.ok w then s.traceRec typ s.fr.gtime payload else s

/-- A record of type 2 or 3 passes the address filter (R438). -/
def Sw.traceLine (s : Sw) (typ : Nat) (laddr : BitVec 45) (payload : Nat) : Sw :=
  if s.trc.filt.addrOk laddr then s.traceRec typ s.fr.gtime payload else s

/-- IDs of shared sources that exist (R367). -/
def evtValid (id : Nat) : Bool := 1 ≤ id && id ≤ 28

/-- IDs private to the Lehr (R367). -/
def evtPrivate (id : Nat) : Bool := 480 ≤ id && id ≤ 486

/-- One event source. -/
def Sw.src (s : Sw) (id : Nat) : EvtSrc := sget EvtSrc.reset s.evt.src id

/-- Update one event source. -/
def Sw.onSrc (s : Sw) (id : Nat) (f : EvtSrc → EvtSrc) : Sw :=
  s.onEvt fun e => { e with src := sset EvtSrc.reset e.src id (f (s.src id)) }

/-- One occurrence of a source; it acts at the end of the clk (R367, R375). -/
def EvtSrc.occur (e : EvtSrc) (info : BitVec 64) : EvtSrc :=
  { e with fresh := e.fresh + 1, freshInfo := if e.fresh == 0 then info else e.freshInfo }

/-- The occurrences of the clk act: OCC saturates at 255; the first sets pending and captures INFO (R367). -/
def EvtSrc.endClk (e : EvtSrc) : EvtSrc :=
  if e.fresh == 0 then e
  else
    let n := e.fresh + if e.pend then e.occ.toNat else 0
    { e with
      pend := true, occ := BitVec.ofNat 8 (min 255 n), age := if e.pend then e.age else 0
      info := if e.pend then e.info else e.freshInfo, fresh := 0, freshInfo := 0 }

/-- Every source at the end of a clk. -/
def Evt.endClk (v : Evt) : Evt := { v with src := v.src.map fun e => (e.1, e.2.endClk) }

/-- What applies from the next clk: a change of TARGET or BANK, and the eligibility of a completed source (R374, R375). -/
def Evt.newClk (v : Evt) : Evt :=
  { v with src := (v.src.map fun e => (e.1, { e.2 with routed := fld e.2.cfg 0 4, freed := false })).filter fun e => e.2 != EvtSrc.reset }

/-- Raise an event: one occurrence, with its trace record (R367, R436). -/
def Sw.raise (s : Sw) (id : Nat) (info : Nat) : Sw :=
  let i := BitVec.ofNat 64 info
  (s.onSrc id fun e => e.occur i).traceRec 4 s.fr.gtime ((id <<< 52) ||| (i.toNat <<< 61))

/-! ## Counters (R429 to R431) -/

/-- Add `n` occurrences to counter `c` of block `b`, when EN is set and FILT is clear or the filters pass; a wrap sets OVF and
raises PMC_OVERFLOW (R429 to R431). A held block counts nothing (R440). -/
def Sw.countIf (s : Sw) (b c n : Nat) (pass : Filt → Bool) : Sw :=
  let k := 8 * b + c
  let cfg := sget 0 s.pmc.cfg k
  if bitAt cfg 0 && !s.pmc.held && (!bitAt cfg 1 || pass (sget Filt.reset s.pmc.filt b)) then
    let v := (sget 0 s.pmc.cnt k).toNat + n
    let s := s.onPmc fun p => { p with cnt := sset 0 p.cnt k (BitVec.ofNat 48 v), now := sset 0 p.now k (sget 0 p.now k + n) }
    if v ≥ 2 ^ 48 then
      (s.onPmc fun p => { p with cfg := sset 0 p.cfg k (sget 0 p.cfg k ||| 8#4), wrapped := k :: p.wrapped }).raise 23 (b + c * 16)
    else s
  else s

/-- An occurrence of a request, or one without a request, which never passes FILT (R430). -/
def Sw.count (s : Sw) (b c n : Nat) (w : Option Who) : Sw := s.countIf b c n fun f => w.any f.ok

/-- A QoS record counts when its class passes the class filter alone (R430). -/
def Sw.countCls (s : Sw) (b c cls : Nat) : Sw := s.countIf b c 1 fun f => fldN f.cls 0 6 ≤ cls && cls ≤ fldN f.cls 8 6

/-- What the request with an acceptance number shows to filters. -/
def Sw.whoOf (s : Sw) (seq : Nat) : Option Who := (s.pipe.flights.find? fun f => f.id == seq).map (·.who)

/-! ## Addresses and placement (R13, R14, R66 to R68) -/

/-- The line group of a line address (R13). -/
def lineGroup (laddr : BitVec 45) : Nat :=
  let a := laddr.toNat
  (a % 1024) ^^^ ((a >>> 10) % 1024) ^^^ ((a >>> 20) % 1024) ^^^ ((a >>> 30) % 1024) ^^^ ((a >>> 40) % 32)

/-- Line address of a physical address (R6). -/
def laddrOf (a : BitVec 52) : BitVec 45 := fld a 7 45

/-- The line is homed at this slice (R14, R17). -/
def Sw.isHome (s : Sw) (p : Params) (laddr : BitVec 45) : Bool :=
  s.map.committed && sget 0 s.map.active (lineGroup laddr) == p.sliceIndex

/-- k of R66. -/
def MapSt.k (m : MapSt) : Nat := m.mine.length

/-- The local index of a line (R66): a[51:17] × k + r(g). -/
def MapSt.index (m : MapSt) (laddr : BitVec 45) : Nat :=
  (laddr.toNat >>> 10) * m.k + (m.mine.findIdx fun g => g == lineGroup laddr)

/-- The line address of a local index (R67). -/
def MapSt.addr (m : MapSt) (l : Nat) : BitVec 45 :=
  let hi := l / m.k
  let g := m.mine.getD (l % m.k) 0
  let lo := g ^^^ (hi % 1024) ^^^ ((hi >>> 10) % 1024) ^^^ ((hi >>> 20) % 1024) ^^^ ((hi >>> 30) % 32)
  BitVec.ofNat 45 ((hi <<< 10) ||| lo)

/-- Set of a local index (R66). -/
def setOf (l : Nat) : Nat := l % 65536

/-- Tag of a local index (R66). -/
def tagOf (l : Nat) : Nat := l / 65536

/-- Number of a location (set, way). -/
def locOf (set way : Nat) : Nat := set * 16 + way

/-- Bank pair of a location (R68): s[4:0]. -/
def pairOf (loc : Nat) : Nat := (loc / 16) % 32

/-- Tier of a location (R68): s[4:3] of its set. -/
def tierOf (loc : Nat) : Nat := (loc / 16 / 8) % 4

/-! ## The data array (Memory) -/

/-- The canonical form of the byte memory: addresses rising, no zero byte listed. -/
abbrev Memory.wf (m : List Host.Cell) : Prop := Sparse.wf (α := Byte) 0 m

/-- The store is in canonical form: data bytes, tag entries, metadata words and directory entries. -/
def Arr.wf (a : Arr) : Prop := Memory.wf a.data ∧ Sparse.wf 0 a.tags ∧ Sparse.wf 0 a.mword ∧ Sparse.wf 0 a.dir

/-- One byte of the data array; an unlisted byte reads 0 (R389). -/
def Memory.byte (m : List Host.Cell) (a : Nat) : Byte := sget 0 m a

/-- The `n` bytes from address `a` as a little-endian number. -/
def Memory.readN (m : List Host.Cell) (a n : Nat) : Nat :=
  (m.filter fun c => a ≤ c.1 && c.1 < a + n).foldl (fun v c => v ||| (c.2.toNat <<< (8 * (c.1 - a)))) 0

/-- Replace the `n` bytes from address `a` by a little-endian number, listing no zero byte. -/
def Memory.writeN (m : List Host.Cell) (a n v : Nat) : List Host.Cell :=
  (m.filter fun c => c.1 < a)
    ++ (((List.range n).map fun i => (a + i, BitVec.ofNat 8 (v >>> (8 * i)))).filter fun c => c.2 ≠ 0)
    ++ m.filter fun c => a + n ≤ c.1

/-- The stored data of a location. -/
def Arr.line (a : Arr) (loc : Nat) : LineBits := BitVec.ofNat 1024 (Memory.readN a.data (loc * 128) 128)

/-- The stored line of a location: data, POISON and HDR (R71). -/
def Arr.stored (a : Arr) (loc : Nat) : Line :=
  let w := sget 0 a.mword loc
  ⟨a.line loc, fld w 0 8, fld w 8 56⟩

/-- Metadata word of a line (R71). -/
def Line.word (l : Line) : BitVec 64 := l.hdr ++ l.poison

/-- A write to a codeword clears its soft errors; failed cells keep theirs (R378, R390). -/
def Arr.cleanCw (a : Arr) (st : Store) (cw : Nat) : Arr :=
  { a with errs := a.errs.filter fun e => !(e.st == st && e.cw == cw && !e.hard) }

/-- Write a whole line and its metadata word. -/
def Arr.put (a : Arr) (loc : Nat) (l : Line) : Arr :=
  let a := { a with
    data := Memory.writeN a.data (loc * 128) 128 l.data.toNat
    mword := sset 0 a.mword loc l.word
    errs := a.errs.filter fun e => !(e.st == Store.data && e.cw / 8 == loc && !e.hard)
    lost := a.lost.filter fun e => e.1 != loc }
  a.cleanCw .mword (loc / 2)

/-- Write a tag entry (R69). -/
def Arr.putTag (a : Arr) (loc : Nat) (w : BitVec 64) : Arr :=
  { a with tags := sset 0 a.tags loc w }.cleanCw .tag (loc / 2)

/-- Write a directory entry (R166). -/
def Arr.putDir (a : Arr) (key : Nat) (w : BitVec 128) : Arr :=
  { a with dir := sset 0 a.dir key w }.cleanCw .dir key

/-! ## Tag entries (R69) -/

def tTag (w : BitVec 64) : Nat := fldN w 0 29
def tValid (w : BitVec 64) : Bool := bitAt w 29
def tDirty (w : BitVec 64) : Bool := bitAt w 30
def tAge (w : BitVec 64) : Nat := fldN w 31 2
def tRetired (w : BitVec 64) : Bool := bitAt w 33
def tKind (w : BitVec 64) : Nat := fldN w 34 2
def tRegion (w : BitVec 64) : Nat := fldN w 36 6
def tPref (w : BitVec 64) : Bool := bitAt w 42

/-- Assemble a tag entry (R69). -/
def tagWord (tag : Nat) (valid dirty : Bool) (age : Nat) (retired : Bool) (kind region : Nat) (pref : Bool) : BitVec 64 :=
  BitVec.ofNat 64 (tag % 2 ^ 29 ||| (valid.toNat <<< 29) ||| (dirty.toNat <<< 30) ||| ((age % 4) <<< 31)
    ||| (retired.toNat <<< 33) ||| ((kind % 4) <<< 34) ||| ((region % 64) <<< 36) ||| (pref.toNat <<< 42))

def withDirty (w : BitVec 64) (d : Bool) : BitVec 64 := (w &&& ~~~(1#64 <<< 30)) ||| (BitVec.ofNat 64 d.toNat <<< 30)
def withAge (w : BitVec 64) (a : Nat) : BitVec 64 := (w &&& ~~~(3#64 <<< 31)) ||| (BitVec.ofNat 64 (a % 4) <<< 31)
def withPref (w : BitVec 64) (d : Bool) : BitVec 64 := (w &&& ~~~(1#64 <<< 42)) ||| (BitVec.ofNat 64 d.toNat <<< 42)
def withRetired (w : BitVec 64) (d : Bool) : BitVec 64 := (w &&& ~~~(1#64 <<< 33)) ||| (BitVec.ofNat 64 d.toNat <<< 33)

/-- A tag entry cleared to zero keeps RETIRED (R397). -/
def clearedTag (w : BitVec 64) : BitVec 64 := withRetired 0 (tRetired w)

/-- The tag entry of a location. -/
def Sw.tag (s : Sw) (loc : Nat) : BitVec 64 := sget 0 s.arr.tags loc

/-- Write the tag entry of a location. -/
def Sw.setTag (s : Sw) (loc : Nat) (w : BitVec 64) : Sw := s.onArr fun a => a.putTag loc w

/-- The location that holds a line, of any KIND. -/
def Sw.findLine (s : Sw) (l : Nat) : Option Nat :=
  ((List.range 16).map (locOf (setOf l))).find? fun loc =>
    let w := s.tag loc
    tValid w && tTag w == tagOf l

/-- The location that holds a line as KIND 0. -/
def Sw.findCached (s : Sw) (l : Nat) : Option Nat :=
  (s.findLine l).filter fun loc => tKind (s.tag loc) == 0

/-- DIRTY as a later request sees it (R442). -/
def Sw.dirtyAt (s : Sw) (loc : Nat) : Bool := tDirty (s.tag loc) || s.pipe.wr.any fun w => w.loc == loc && w.dirty

/-! ## Fatal causes (R205) -/

/-- A dead or fenced slice finds no further cause (R206, R207). -/
def Sw.domainDown (s : Sw) : Bool := s.life.drain.isSome || s.life.st == .fenced

/-- A fatal cause is found in this clk; among causes of one clk the lower code is kept (R205). -/
def Sw.fatal (s : Sw) (code : BitVec 4) (detail : Nat) : Sw :=
  if s.domainDown then s
  else s.onLife fun l =>
    let keep : Bool := match l.fatal with
      | some (c, _) => decide (c.toNat ≤ code.toNat)
      | none => false
    if keep then l else { l with fatal := some (code, BitVec.ofNat 17 detail) }

/-! ## Codeword checks (R378 to R385) -/

/-- Result of checking one codeword. -/
inductive CwRes where
  | clean | corrected | uncorrectable | free
  deriving DecidableEq, Repr

/-- Symbols in error of a codeword, each once. -/
def Arr.symbols (a : Arr) (st : Store) (cw : Nat) : List Nat :=
  ((a.errs.filter fun e => e.st == st && e.cw == cw).flatMap fun e => e.syms).eraseDups

/-- Number of a codeword over all four structures. -/
def cwKey (st : Store) (cw : Nat) : Nat := 4 * cw + match st with
  | .data => 0
  | .mword => 1
  | .tag => 2
  | .dir => 3

/-- One symbol is corrected, two are detected; three or more are a free value (R378, R380). -/
def Arr.check (a : Arr) (st : Store) (cw : Nat) : CwRes :=
  match (a.symbols st cw).length with
  | 0 => .clean
  | 1 => .corrected
  | 2 => .uncorrectable
  | _ => if Config.wideErrorSeen (cwKey st cw) a.sensed then .uncorrectable else .free

/-- Replace the 128 data bits of a codeword. -/
def Arr.setCw (a : Arr) (st : Store) (cw : Nat) (v : BitVec 128) : Arr :=
  match st with
  | .data => { a with data := Memory.writeN a.data (16 * cw) 16 v.toNat }
  | .mword => { a with mword := sset 0 (sset 0 a.mword (2 * cw) (fld v 0 64)) (2 * cw + 1) (fld v 64 64) }
  | .tag => { a with tags := sset 0 (sset 0 a.tags (2 * cw) (fld v 0 64)) (2 * cw + 1) (fld v 64 64) }
  | .dir => { a with dir := sset 0 a.dir cw v }

/-- An error that the code did not see, or corrected wrongly: from then on the codeword holds the free data that the read
delivered (R380). -/
def Arr.takeFree (a : Arr) (st : Store) (cw : Nat) : Arr :=
  { (a.setCw st cw (Config.wideErrorData (cwKey st cw) a.sensed)).cleanCw st cw with sensed := a.sensed + 1 }

/-- Correct-and-write-backs pending (R382). -/
def Sw.wbacks (s : Sw) : List ArrAcc := s.pipe.acc.filter fun a => match a.job with
  | .wback _ _ => true
  | _ => false

/-- Queue an array access (R77). -/
def Sw.access (s : Sw) (a : ArrAcc) : Sw := s.onPipe fun p => { p with acc := p.acc ++ [a] }

/-- A background access on a pair from clk `at_` on, ranked last, in the order raised (R77); one that repairs what a request
found moves with that request (R80). -/
def Sw.bgFrom (s : Sw) (pair at_ : Nat) (write : Bool) (job : AccJob) (loc finder : Option Nat) : Sw :=
  (s.access ⟨pair, at_, 2, s.pipe.nextSeq, none, 0, write, job, 0, loc, finder⟩).onPipe fun p => { p with nextSeq := p.nextSeq + 1 }

/-- A background access raised in the present clk. -/
def Sw.bgAccess (s : Sw) (pair : Nat) (write : Bool) (job : AccJob) : Sw := s.bgFrom pair s.fr.clk write job none none

/-- Bank pair whose access carries the write-back of a codeword; base-logic arrays use none of them (pair 32). -/
def cwPair (st : Store) (cw : Nat) : Nat := match st with
  | .data => pairOf (cw / 8)
  | _ => 32

/-- Where the error was found: the clk from which repairs may start, and the request whose read found it (R80). -/
structure Found where
  at_ : Nat
  finder : Option Nat
  deriving DecidableEq, Repr

/-- A corrected codeword is queued for write-back unless it is pending or 16 are (R382). -/
def Sw.writeBack (s : Sw) (st : Store) (cw : Nat) (f : Found) : Sw × Bool :=
  let pend := s.wbacks
  if pend.length ≥ 16 || pend.any (fun a => a.job == .wback st cw) then (s.count 3 3 1 none, false)
  else (s.bgFrom (cwPair st cw) f.at_ true (.wback st cw) none f.finder, true)

/-- Add one to a live error count (R385). -/
def Sw.telCorr (s : Sw) : Sw := s.onTel fun t => { t with live := { t.live with corr := t.live.corr + 1 } }
def Sw.telUncorr (s : Sw) : Sw := s.onTel fun t => { t with live := { t.live with uncorr := t.live.uncorr + 1 } }
def Sw.telMeta (s : Sw) : Sw := s.onTel fun t => { t with live := { t.live with metaErr := t.live.metaErr + 1 } }

/-- A parity error of a port or an internal register (R384, R385; MESH counter 7). -/
def Sw.telParity (s : Sw) (n : Nat) : Sw :=
  (s.onTel fun t => { t with live := { t.live with parity := t.live.parity + BitVec.ofNat 32 n } }).count 9 7 n none

/-- INFO of an array error: set and way (R367). -/
def errInfo (loc : Nat) : Nat := (loc / 16) ||| ((loc % 16) <<< 16)

/-- A codeword is found in error: `true` the first time in this clk (R385). -/
def Sw.foundCw (s : Sw) (st : Store) (cw : Nat) : Sw × Bool :=
  if s.arr.found.contains (st, cw) then (s, false) else (s.onArr fun a => { a with found := (st, cw) :: a.found }, true)

/-- Check one codeword of the data array at a location; `true` when it is uncorrectable (R380 to R385). -/
def Sw.checkData (s : Sw) (loc k : Nat) (f : Found) : Sw × Bool :=
  let cw := loc * 8 + k
  match s.arr.check .data cw with
  | .clean => (s, false)
  | .free => (s.onArr fun a => a.takeFree .data cw, false)
  | .corrected =>
    let (s, queued) := s.writeBack .data cw f
    (if queued then s.telCorr.raise 17 (errInfo loc) else s, false)
  | .uncorrectable =>
    let (s, first) := s.foundCw .data cw
    (if first then s.telUncorr.raise 18 (errInfo loc) else s, true)

/-- Check the metadata codeword of a location; `true` when its word is lost: the codeword is uncorrectable, or was so and the
word has not been rewritten since (R73, R381). -/
def Sw.checkMeta (s : Sw) (loc : Nat) (f : Found) : Sw × Bool :=
  let cw := loc / 2
  let was := s.arr.lost.any fun e => e.1 == loc
  match s.arr.check .mword cw with
  | .clean => (s, was)
  | .free => (s.onArr fun a => a.takeFree .mword cw, was)
  | .corrected =>
    let (s, queued) := s.writeBack .mword cw f
    (if queued then s.telCorr else s, was)
  | .uncorrectable =>
    let (s, first) := s.foundCw .mword cw
    let s := if first then s.telUncorr.raise 18 (errInfo loc) else s
    let lose (s : Sw) (l : Nat) : Sw :=
      if s.arr.lost.any fun e => e.1 == l then s
      else (s.onArr fun a => { a with lost := a.lost ++ [(l, false)] }).bgFrom (pairOf l) f.at_ true (.fix l 255 true) (some l) f.finder
    (lose (lose s (2 * cw)) (2 * cw + 1), true)

/-- Check one tag codeword (R381, R205): an uncorrectable one is fatal with the set number. -/
def Sw.checkTag (s : Sw) (cw : Nat) : Sw :=
  match s.arr.check .tag cw with
  | .clean => s
  | .free => s.onArr fun a => a.takeFree .tag cw
  | .corrected =>
    let (s, first) := s.foundCw .tag cw
    let s := (s.writeBack .tag cw ⟨s.fr.clk, none⟩).1
    if first then s.telMeta else s
  | .uncorrectable => s.fatal 1 (cw / 8)

/-- Check one set's tag codewords at LKP. -/
def Sw.checkTags (s : Sw) (set : Nat) : Sw :=
  if s.arr.errs.isEmpty then s else (List.range 8).foldl (fun s j => s.checkTag (set * 8 + j)) s

/-! ## Directory entries (R166 to R168) -/

def dTag (e : BitVec 128) : Nat := fldN e 0 28
def dState (e : BitVec 128) : Nat := fldN e 28 3
def dBase (e : BitVec 128) : Nat := fldN e 28 2
def dOpen (e : BitVec 128) : Bool := bitAt e 30
def dOvf (e : BitVec 128) : Bool := bitAt e 31
def dOwner (e : BitVec 128) : Nat := fldN e 32 10
def dGroups (e : BitVec 128) : BitVec 32 := fld e 42 32

/-- The valid sharer pointers in order (R166). -/
def dPtrs (e : BitVec 128) : List Nat :=
  ((List.range 4).filter fun i => bitAt e (82 + i)).map fun i => fldN e (42 + 10 * i) 10

/-- STATE and OVF form one of the rows of R167. -/
def dValid (e : BitVec 128) : Bool := !(dOvf e && (dBase e == 0 || dBase e == 2))

/-- An entry with pointers (R166): `st` is the base state. -/
def dirPtr (tag st owner : Nat) (ptrs : List Nat) : BitVec 128 :=
  let sh := (ptrs.take 4).zipIdx.foldl (fun n p => n ||| ((p.1 % 1024) <<< (42 + 10 * p.2)) ||| (1 <<< (82 + p.2))) 0
  BitVec.ofNat 128 (tag % 2 ^ 28 ||| ((st % 4) <<< 28) ||| ((owner % 1024) <<< 32) ||| sh)

/-- An entry with a group vector (R166). -/
def dirVec (tag st owner : Nat) (groups : BitVec 32) : BitVec 128 :=
  BitVec.ofNat 128 (tag % 2 ^ 28 ||| ((st % 4) <<< 28) ||| (1 <<< 31) ||| ((owner % 1024) <<< 32) ||| (groups.toNat <<< 42))

/-- Set or clear the transient bit STATE[2] (R170). -/
def withOpen (e : BitVec 128) (b : Bool) : BitVec 128 := (e &&& ~~~(1#128 <<< 30)) ||| (BitVec.ofNat 128 b.toNat <<< 30)

/-- Keys of the 16 ways of the directory set of a line (R165). -/
def dirKeys (l : Nat) : List Nat := (List.range 16).map fun w => (l % 131072) * 16 + w

/-- Tag of a line in the directory (R165). -/
def dirTag (l : Nat) : Nat := l / 131072

/-- One directory entry. -/
def Sw.dirAt (s : Sw) (key : Nat) : BitVec 128 := sget 0 s.arr.dir key

/-- An entry is in use: any form but the free form I, the transient form of I included (R167, R171). -/
def dUsed (e : BitVec 128) : Bool := dState e != 0

/-- The entry of a line, if it has one. -/
def Sw.findDir (s : Sw) (l : Nat) : Option Nat :=
  (dirKeys l).find? fun k => dUsed (s.dirAt k) && dTag (s.dirAt k) == dirTag l

/-- The line a directory entry tracks. -/
def dirLine (key : Nat) (e : BitVec 128) : Nat := dTag e * 131072 + key / 16

/-- Check one directory codeword (R381): an uncorrectable one is fatal with the set number. -/
def Sw.checkDirCode (s : Sw) (k : Nat) : Sw :=
  match s.arr.check .dir k with
  | .clean => s
  | .free => s.onArr fun a => a.takeFree .dir k
  | .corrected =>
    let (s, first) := s.foundCw .dir k
    let s := (s.writeBack .dir k ⟨s.fr.clk, none⟩).1
    if first then s.telMeta else s
  | .uncorrectable => s.fatal 2 (k / 16)

/-- A lookup checks a directory codeword and the form of its entry (R381, R167, R198). -/
def Sw.checkDirCw (s : Sw) (k : Nat) : Sw :=
  let s := s.checkDirCode k
  if dValid (s.dirAt k) then s else s.fatal 2 (k / 16)

/-- Check the directory set of a line at LKP. -/
def Sw.checkDir (s : Sw) (l : Nat) : Sw := (dirKeys l).foldl Sw.checkDirCw s

/-! ## Regions and contexts (06, 09) -/

/-- A region of the table. -/
def Sw.region (s : Sw) (r : Nat) : Option Region := (s.pin.regions.find? fun e => e.1 == r).map (·.2)

/-- The region whose range holds a line (R139, R141), with its number. -/
def Sw.regionOf (s : Sw) (l : Nat) : Option (Nat × Region) :=
  s.pin.regions.find? fun e => e.2.l0 ≤ l && l < e.2.l0 + e.2.n

/-- Ways of a mask in ascending order. -/
def waysOf (m : BitVec 16) : List Nat := (List.range 16).filter fun w => bitAt m w

/-- The location that R142 assigns to a line of a region. -/
def Region.loc (r : Region) (l : Nat) : Nat := locOf (setOf l) ((waysOf r.ways).getD ((l - r.l0) / 65536) 0)

/-- Ways held by regions. -/
def Sw.heldWays (s : Sw) : BitVec 16 := s.pin.regions.foldl (fun m e => m ||| e.2.ways) 0

/-- The template of a region. -/
def Sw.template (s : Sw) (r : Nat) : Option Template := (s.gth.tmpl.find? fun e => e.1 == r).map (·.2)

/-- Elements per context (R210). -/
def Template.n (t : Template) : Nat := match t.elems.toNat with
  | 0 => 16 | 1 => 32 | _ => 64

/-- A sum of squares is kept. -/
def Template.sumsq (t : Template) : Bool := t.mode == 0 && t.opt

/-- Lines per context, C of R211. -/
def Template.c (t : Template) : Nat := match t.mode.toNat with
  | 0 => (t.n / 8) * (if t.opt then 2 else 1)
  | 1 => 16
  | _ => 1

/-- Parts of an FX96 forward: P of R229, twice with SUMSQ. -/
def Template.parts (t : Template) : Nat := ((t.n + 9) / 10) * (if t.sumsq then 2 else 1)

/-- Contexts of a region in this slice (R213). -/
def ctxCount (r : Region) (t : Template) : Nat := r.n / t.c

/-- The context that a line belongs to: number, and position of the line in it (R213). -/
def ctxOf (r : Region) (t : Template) (l : Nat) : Option (Nat × Nat) :=
  let j := (l - r.l0) / t.c
  if j < ctxCount r t then some (j, (l - r.l0) % t.c) else none

/-! ### Context headers (R219) -/

def hCount (h : BitVec 56) : Nat := fldN h 0 17
def hRound (h : BitVec 56) : Nat := fldN h 17 16
def hLoss (h : BitVec 56) : Bool := bitAt h 33
def hOvf (h : BitVec 56) : Bool := bitAt h 34
def hPoison (h : BitVec 56) : Bool := bitAt h 35
def hMaxexp (h : BitVec 56) : Nat := fldN h 37 9

/-- Assemble a header (R219). -/
def header (count round : Nat) (loss ovf poison closed : Bool) (maxexp : Nat) : BitVec 56 :=
  BitVec.ofNat 56 (count % 2 ^ 17 ||| ((round % 65536) <<< 17) ||| (loss.toNat <<< 33) ||| (ovf.toNat <<< 34)
    ||| (poison.toNat <<< 35) ||| (closed.toNat <<< 36) ||| ((maxexp % 512) <<< 37))

/-- A header that was lost: zero with POISON = 1 (R221). -/
def hdrLost : BitVec 56 := header 0 0 false false true false 0

/-- The line heads a context of a region with a template: region number. -/
def Sw.headsContext (s : Sw) (l : Nat) : Option Nat :=
  match s.regionOf l with
  | some (r, reg) =>
    match s.template r with
    | some t => if reg.typ == 2 && (ctxOf reg t l).any (fun c => c.2 == 0) then some r else none
    | none => none
  | none => none

/-! ## Internal datapath parity (R384) -/

/-- The data that request `id` carries leaves a datapath register: each byte that fails its parity sets the POISON bit of its
16-B group and is counted with the port parity errors (R384, R385). -/
def Sw.carry (s : Sw) (id : Nat) (ln : Line) : Sw × Line :=
  let bad := s.pipe.parity.filter fun e => e.1 == id
  if bad.isEmpty then (s, ln)
  else ((s.onPipe fun p => { p with parity := p.parity.filter fun e => e.1 != id }).telParity bad.length,
    { ln with poison := ln.poison ||| groupsOf (bad.map (·.2)) })

/-! ## Reading a line -/

/-- The newest uncommitted write to a location (R79). -/
def Sw.newest (s : Sw) (loc : Nat) : Option PendWr := (s.pipe.wr.filter fun w => w.loc == loc).getLast?

/-- Zero the 16-byte groups of a mask. -/
def zeroGroups (d : LineBits) (m : BitVec 8) : LineBits :=
  (List.range 8).foldl (fun d k => if bitAt m k then putBytes d (16 * k) 16 0 else d) d

/-- The location holds a bound line although it is RETIRED (R397). -/
def Sw.retiredBound (s : Sw) (loc : Nat) : Bool := tRetired (s.tag loc) && tValid (s.tag loc)

/-- The line that a location holds heads a context. -/
def Sw.headAt (s : Sw) (loc : Nat) : Option Nat :=
  if tValid (s.tag loc) then s.headsContext (tTag (s.tag loc) * 65536 + loc / 16) else none

/-- The line as an array read that starts at clk `f.at_ - 6` delivers it, with the codewords that were uncorrectable and whether
its metadata word was lost (R73, R383); the data of a RETIRED bound location read as zero, poisoned, and only its metadata
codeword is read (R397). -/
def Sw.readLine (s : Sw) (loc : Nat) (f : Found) : Sw × Line × BitVec 8 × Bool :=
  if s.retiredBound loc then
    let (s, lost) := s.checkMeta loc f
    let hdr := match s.newest loc with
      | some w => w.line.hdr
      | none => if lost then (if (s.headAt loc).isSome then hdrLost else 0) else (s.arr.stored loc).hdr
    (s, ⟨0, 255, if (s.headAt loc).isSome then hdr ||| BitVec.ofNat 56 (1 <<< 35) else 0⟩, 0, lost && (s.newest loc).isNone)
  else match s.newest loc with
  | some w => (s, w.line, 0, false)
  | none =>
    if s.arr.errs.isEmpty && s.arr.lost.isEmpty then (s, s.arr.stored loc, 0, false)
    else
      let (s, bad) := (List.range 8).foldl (fun (a : Sw × BitVec 8) k =>
        let (s, b) := a.1.checkData loc k f
        (s, if b then a.2 ||| (1#8 <<< k) else a.2)) (s, 0)
      let (s, lost) := s.checkMeta loc f
      let raw := s.arr.stored loc
      let s := if bad != 0 then s.bgFrom (pairOf loc) f.at_ true (.fix loc bad false) (some loc) f.finder else s
      (s, ⟨zeroGroups raw.data bad, if lost then 255 else raw.poison ||| bad,
        if lost then (if (s.headAt loc).isSome then hdrLost else 0) else raw.hdr⟩, bad, lost)

/-- The line as the newest accepted writer leaves it, without a check. -/
def Sw.peekLine (s : Sw) (loc : Nat) : Line :=
  match s.newest loc with
  | some w => w.line
  | none => s.arr.stored loc

/-! ## Uncommitted writes and accesses (R75 to R79) -/

/-- A location has a write that has not committed. -/
def Sw.writing (s : Sw) (loc : Nat) : Bool := s.pipe.wr.any fun w => w.loc == loc

/-- A line is in flight from now on, with its UPD at clk `upd` (R79). -/
def Sw.use (s : Sw) (flight loc upd : Nat) (ln : Line) : Sw := s.onPipe fun p => { p with uses := p.uses ++ [⟨flight, loc, upd, ln⟩] }

/-- The newest line that a request has in flight at a location, between its RES and its AWR (R79). -/
def Sw.inFlight (s : Sw) (loc : Nat) : Option Use := (s.pipe.uses.filter fun u => u.loc == loc && s.fr.clk ≤ u.upd + 3).getLast?

/-- Queue an array write of a line, whose access moves the later stages of request `flight` when it waits (R77). An earlier write of
the line whose array access has not started needs none of its own: this one stores its result (R79). -/
def Sw.queueWrite (s : Sw) (w : PendWr) (nominal rank cls : Nat) (flight : Option Nat) : Sw :=
  let prev := s.newest w.loc
  let w := { w with dirty := w.dirty || prev.any fun x => x.dirty && x.at_.isNone }
  let s := (s.onPipe fun p => { p with
    wr := p.wr ++ [w]
    acc := match prev with
      | some x => if x.at_.isNone then
          dropFirst (fun a => a.write && a.job == .plain && a.loc == some x.loc && a.ord == x.ord) p.acc
        else p.acc
      | none => p.acc }).access ⟨pairOf w.loc, nominal, rank, w.ord, flight, cls, true, .plain, 0, some w.loc, none⟩
  match w.flight with
  | some id => s.use id w.loc (nominal - 2) w.line
  | none => s

/-- Queue an array write whose request waits for it. -/
def Sw.writeLine (s : Sw) (w : PendWr) (nominal rank cls : Nat) : Sw := s.queueWrite w nominal rank cls w.flight

/-- A write or status write of a readout entry to a line of this slice is complete with its commit (R239). -/
def Sw.localDone (s : Sw) (flight : Option Nat) : Sw :=
  match (s.pipe.flights.find? fun f => flight == some f.id).bind fun f => f.self with
  | none => s
  | some id =>
    s.onGth fun g => match (g.self.find? fun q => q.id == id).map fun q => q.owner with
      | some (SelfOwner.readout ro) => { g with
          self := updFirst (fun q => q.id == id) (fun q => { q with owner := .spent }) g.self
          ro := updFirst (fun e => e.id == ro) (fun e => { e with open_ := e.open_ - 1 }) g.ro }
      | _ => g

/-- The way of a fill is held until its line has been written (R119). -/
def Sw.releaseWay (s : Sw) (txn : Option Nat) (loc : Nat) : Sw :=
  match txn with
  | none => s
  | some i => s.onHome fun h => { h with
      txns := updFirst (fun t => t.idx == i && t.way == some loc) (fun t => { t with way := none }) h.txns }

/-! ### Where a codeword lies (R379, R394) -/

/-- Place of a hard fault (R379, R390): tier, bank, subarray, row, and the column group of the lowest failing symbol. -/
def faultPlace (st : Store) (cw sym : Nat) : Option (Place × Nat) :=
  match st with
  | .data =>
    let loc := cw / 8
    let set := loc / 16
    let way := loc % 16
    let k := cw % 8
    let pair := set % 32
    let h := (set / 64) % 2
    let w := k % 4
    let g := if sym ≤ 31 then 16 * h + 4 * w + sym / 8 else 32 + 2 * h + w / 2
    some (⟨pair / 8, 2 * (pair % 8) + k / 4, 2 * way + (set / 32) % 2, 0, set / 128⟩, g)
  | _ => none

/-- What is left of the failed cells of a codeword once its row or column group is served by a spare (R394). -/
def CellErr.moved (e : CellErr) (pl : Place) (loc : Nat) : Option CellErr :=
  if e.st == Store.data && e.cw / 8 == loc && (e.cw % 8) / 4 == pl.bank % 2 then
    if pl.kind == 0 then none
    else
      let keep := e.syms.filter fun y => !((faultPlace .data e.cw y).any fun f => f.2 == pl.index)
      if keep.isEmpty then none else some { e with syms := keep }
  else some e

/-- What the commit of a walk's write does besides: a bound line's KIND 0 copy in another way is invalidated and the data collected
for it is no longer needed (R143); a moved line is served through the new mapping (R394). -/
def Sw.walkCommit (s : Sw) (loc : Nat) : Sw :=
  match s.walk.map fun w => w.kind with
  | some (WalkKind.bind _) =>
    let l := tTag (s.tag loc) * 65536 + loc / 16
    let s := match s.findCached l with
      | some o => s.setTag o (clearedTag (s.tag o))
      | none => s
    s.onWalk fun w => w.map fun w => { w with img := sdel w.img l }
  | some (WalkKind.move pl _) => s.onArr fun a => { a with errs := a.errs.filterMap fun e => e.moved pl loc }
  | _ => s

/-- Commit one write: the line, its metadata word, and DIRTY of a KIND 1 line (R76, R442); pending repairs of its codewords
are cancelled (R79). A RETIRED bound location stores nothing but the header of a context (R397). -/
def Sw.commit (s : Sw) (w : PendWr) : Sw :=
  let s := (s.releaseWay w.txn w.loc).localDone w.flight
  let s := if w.flight.isNone then s.walkCommit w.loc else s
  let t := s.tag w.loc
  if tRetired t && tValid t then
    if tKind t == 3 then s.onArr fun a => { a with
      mword := sset 0 a.mword w.loc (Line.word ⟨0, fld (sget 0 a.mword w.loc) 0 8, w.line.hdr⟩)
      lost := a.lost.filter fun e => e.1 != w.loc }
    else s
  else
    let s := if s.arr.lost.any fun e => e.1 == w.loc then s else (s.checkMeta w.loc ⟨s.fr.clk, none⟩).1
    let s := s.onPipe fun p => { p with
      acc := p.acc.filter fun a => match a.job with
        | .wback .data cw => cw / 8 != w.loc
        | .wback .mword cw => cw != w.loc / 2
        | .fix loc _ _ => loc != w.loc
        | _ => true
      undo := sdel p.undo w.loc
      uses := if w.flight.isNone then p.uses.filter fun u => u.loc != w.loc else p.uses }
    let s := s.onArr fun a => a.put w.loc w.line
    if w.dirty then s.setTag w.loc (withDirty t true) else s

/-- Commit every write whose clk has come. -/
def Sw.commitDue (s : Sw) : Sw :=
  let due := s.pipe.wr.filter fun w => w.at_.any (· ≤ s.fr.clk)
  (due.foldl Sw.commit s).onPipe fun p => { p with wr := p.wr.filter fun w => !(w.at_.any (· ≤ s.fr.clk)) }

/-! ## Responses (R84, R107, R108) -/

/-- Queue a response. -/
def Sw.respond (s : Sw) (r : Resp) : Sw := s.onPipe fun p => { p with rsp := p.rsp ++ [r] }

/-- Update one flight. -/
def Sw.onFlight (s : Sw) (id : Nat) (f : Flight → Flight) : Sw :=
  s.onPipe fun p => { p with flights := updFirst (fun x => x.id == id) f p.flights }

/-- Move every stage of a request that comes after clk `n` by `d` clk: its accesses, the repairs that its read found, its UPD
and its response (R77 to R80). An access of the stage that was late itself counts `d` clk of its own wait as taken. -/
def Sw.shift (s : Sw) (id n d : Nat) : Sw :=
  (s.onFlight id fun f => { f with delay := f.delay + d }).onPipe fun p => { p with
    acc := updAll (fun a => a.flight == some id || a.finder == some id)
      (fun a => if a.at_ > n then { a with at_ := a.at_ + d } else { a with lag := a.lag + d }) p.acc
    uses := updAll (fun u => u.flight == id && u.upd ≥ n) (fun u => { u with upd := u.upd + d }) p.uses
    rsp := updAll (fun r => r.flight == some id) (fun r => { r with due := r.due + d }) p.rsp }

/-- Clk of the UPD of a request at a location. -/
def Sw.updAt (s : Sw) (id loc : Nat) : Option Nat := ((s.pipe.uses.filter fun u => u.flight == id && u.loc == loc).getLast?).map (·.upd)

/-- The clk by which a result that a request takes comes later than its own UPD needs it (R79). -/
def Sw.lateBy (s : Sw) (f : Flight) (d : Nat × Nat) : Nat :=
  match s.updAt f.id d.2, s.updAt d.1 d.2 with
  | some need, some have_ => have_ - need
  | _, _ => 0

/-- Requests whose UPD takes the result of request `id` move by the clk by which that result comes too late, and so on along
a chain of such requests (R79). A locked-slot request then raises LOCKED_LATE (R78). -/
def Sw.shiftDeps (s : Sw) (id : Nat) : Nat → Sw
  | 0 => s
  | fuel + 1 =>
    (s.pipe.flights.filter fun f => f.deps.any fun d => d.1 == id).foldl (fun s f =>
      let d := ((f.deps.filter fun d => d.1 == id).map (s.lateBy f)).foldl max 0
      if d > 0 then
        let s := s.shift f.id (((f.deps.filterMap fun d => s.updAt f.id d.2).foldl min (f.acc + 2 ^ 64)) - 1) d
        let s := if f.locked then (s.raise 5 f.cls).count 0 5 1 (some f.who) else s
        s.shiftDeps f.id fuel
      else s) s

/-- Request `id` takes the line at a location from an earlier request in flight (R79): it waits for that request's result when
this comes later than its own UPD. -/
def Sw.takeFrom (s : Sw) (id loc : Nat) (from_ : Option Nat) : Sw :=
  match from_ with
  | none => s
  | some e =>
    if e == id then s
    else (s.onFlight id fun f => { f with deps := f.deps ++ [(e, loc)] }).shiftDeps e 64

/-- The line of a location for request `id`: taken from an earlier request that has it in flight, with no access (R79), or read
from the array at clk `at_` (R75). Its UPD comes 6 clk after the read; `true` when its metadata word was lost. -/
def Sw.takeLine (s : Sw) (id loc at_ rank cls : Nat) : Sw × Line × Bool :=
  let upd := at_ + 6
  match s.newest loc, s.inFlight loc with
  | some w, _ =>
    let (s, ln, _, lost) := s.readLine loc ⟨upd, some id⟩
    ((s.use id loc upd ln).takeFrom id loc w.flight, ln, lost)
  | none, some u =>
    if s.retiredBound loc then
      let (s, ln, _, lost) := s.readLine loc ⟨upd, some id⟩
      (s.use id loc upd ln, ln, lost)
    else ((s.use id loc upd u.line).takeFrom id loc (some u.flight), u.line, false)
  | none, none =>
    let s := s.access ⟨pairOf loc, at_, rank, id, some id, cls, false, .plain, 0, some loc, none⟩
    let (s, ln, _, lost) := s.readLine loc ⟨upd, some id⟩
    (s.use id loc upd ln, ln, lost)

/-! ## Self-raised requests (R272) -/

/-- A number of `0, …, n - 1` that is not in use, which one being a free value (log 22). -/
def Sw.freeNumber (s : Sw) (pool n : Nat) (used : Nat → Bool) : Option Nat :=
  let free := (List.range n).filter fun i => !used i
  free[Config.tagPick pool s.fr.clk free.length % free.length]?

/-- A TXN number that no outstanding request of the slice's own uses (R272). -/
def Sw.freeSelf (s : Sw) : Nat := (s.freeNumber 3 4096 fun i => s.gth.self.any fun r => r.id == i).getD 0

/-- Drop the record of a self-raised request. -/
def Sw.dropSelf (s : Sw) (id : Nat) : Sw := s.onGth fun g => { g with self := dropFirst (fun r => r.id == id) g.self }

/-! ## Clk helpers -/

/-- SLICE_START has completed since the last reset (R275, R417). -/
def SliceSt.started : SliceSt → Bool
  | .boot => false
  | .safe => false
  | .config => false
  | _ => true


/-- ref_clk cycles of a time in microseconds (R418). -/
def usRef (p : Params) (us : Nat) : Nat := us * p.refMHz

/-- T_SNP of R204. -/
def Sw.tSnp (s : Sw) : Nat := 2 ^ s.life.snpExp

end Sys2Proof.Machine
end

