-- ==== Sys2Proof/Machine/Operands.lean ====
section
/-! DEFINITION. Forms of requests and contributions: opcodes, sizes, alignment, data flits, deadlines, classes, and the
answers that a request or contribution receives (02, 04, 11, 13). -/
namespace Sys2Proof.Machine

/-- The requests of R40. -/
inductive ReqKind where
  | readShared | readUnique | readOnce | upgrade | cleanInv | evictClean | writeBack | writeInv | writePart
  | atomic (op : Nat) (fetch : Bool)
  deriving DecidableEq, Repr

/-- Decode a REQ opcode (R40). -/
def kindOf (op : BitVec 8) : Option ReqKind :=
  match op.toNat with
  | 0x21 => some .readShared
  | 0x22 => some .readUnique
  | 0x23 => some .readOnce
  | 0x41 => some .upgrade
  | 0x42 => some .cleanInv
  | 0x43 => some .evictClean
  | 0x61 => some .writeBack
  | 0x62 => some .writeInv
  | 0x63 => some .writePart
  | n =>
    if 0x80 ≤ n && n ≤ 0x8A then some (.atomic (n - 0x80) false)
    else if 0xA0 ≤ n && n ≤ 0xAA then some (.atomic (n - 0xA0) true)
    else none

/-- Bytes of a SIZE code (R39). -/
def sizeBytes (size : BitVec 3) : Nat := 2 ^ size.toNat

/-- SIZE permitted for a request (R40, R265). -/
def sizeOk (k : ReqKind) (size : BitVec 3) : Bool :=
  let n := size.toNat
  match k with
  | .writePart => n ≤ 6
  | .atomic op _ =>
    if op = 8 then n == 2 || n == 3 || n == 4
    else if op = 9 then n == 2
    else if op = 10 then n == 1
    else n == 2 || n == 3
  | _ => n == 7

/-- ADDR is naturally aligned to SIZE (R39). -/
def alignOk (r : Req) : Bool := r.addr.toNat % sizeBytes r.size == 0

/-- The request is permitted by R40, R265 and the SCOPE rule. -/
def formOk (r : Req) : Bool :=
  match kindOf r.op with
  | some k => sizeOk k r.size && alignOk r && r.scope != 3
  | none => false

/-- The request carries a data flit (R40). -/
def needsData (r : Req) : Bool :=
  match kindOf r.op with
  | some .writeBack => true
  | some .writeInv => true
  | some .writePart => true
  | some (.atomic _ _) => true
  | _ => false

/-- DOP of the data flit that is paired with a request (R40, R44). -/
def dataDop (r : Req) : BitVec 4 :=
  match kindOf r.op with
  | some (.atomic _ _) => 4
  | _ => 0

/-- Requests that only caching agents may issue (R158). -/
def ReqKind.caching : ReqKind → Bool
  | .readShared => true
  | .readUnique => true
  | .upgrade => true
  | .writeBack => true
  | .evictClean => true
  | _ => false

/-- Requests that read a line and receive COMP_DATA. -/
def ReqKind.isRead : ReqKind → Bool
  | .readShared => true
  | .readUnique => true
  | .readOnce => true
  | _ => false

/-- Requests whose completion carries data: reads and FETCH atomics. -/
def ReqKind.dataAnswer : ReqKind → Bool
  | .readShared => true
  | .readUnique => true
  | .readOnce => true
  | .atomic _ f => f
  | _ => false

/-- The request is an atomic. -/
def ReqKind.isAtomic : ReqKind → Bool
  | .atomic _ _ => true
  | _ => false

/-- What a request shows to filters. -/
def Req.who (r : Req) : Who := ⟨r.src, r.qos.toNat, r.priv, laddrOf r.addr⟩

/-- What a contribution shows to filters. -/
def Gth.who (g : Gth) : Who := ⟨g.src, g.qos.toNat, g.priv, g.laddr⟩

/-- Class parameters in force (R300). -/
def Sw.cls (s : Sw) (c : Nat) : ClassPar := sget ClassPar.default s.qos.cls c

/-- DF of R302 at the present clk. -/
def Sw.extendDeadline (s : Sw) (d : BitVec 16) : BitVec 32 :=
  let na : BitVec 32 := fld s.fr.gtime 4 32
  na + ((d - na.setWidth 16).signExtend 32)

/-- The present gtime in deadline units (R303). -/
def Sw.gUnits (s : Sw) : BitVec 32 := fld s.fr.gtime 4 32

/-- A request whose flits are all present (R93). -/
def ReqEnt.complete (e : ReqEnt) : Bool := !needsData e.r || e.dat.isSome

/-- Codes of R43. -/
def rCOMP : BitVec 8 := 0xC1
def rCOMP_ACK : BitVec 8 := 0x82
def rSNP_RESP : BitVec 8 := 0x83
def rGTH_ACK : BitVec 8 := 0xC4
def rRETRY : BitVec 8 := 0xC5
def rERROR : BitVec 8 := 0xC6
def stOK : BitVec 8 := 0x00
def stNOT_HOME : BitVec 8 := 0x01
def stACCESS : BitVec 8 := 0x02
def stDECODE : BitVec 8 := 0x03
def stABORTED : BitVec 8 := 0x04
def stDOMAIN_DEAD : BitVec 8 := 0x05
def stTABLE_FULL : BitVec 8 := 0x10
def stLINE_BUSY : BitVec 8 := 0x11
def stDIR_SET_BUSY : BitVec 8 := 0x12
def stGTH_BUSY : BitVec 8 := 0x13
def stQUOTA : BitVec 8 := 0x14

/-- Where an answer goes and what it belongs to. -/
structure Ans where
  txn : BitVec 12
  src : BitVec 12
  rop : BitVec 8
  self : Option Nat
  due : Nat
  flight : Option Nat
  home : Option Nat
  waitEv : Bool
  exact : Bool
  crd : Option Lane := none
  deriving DecidableEq, Repr

/-- The answer of a refusal made in clk `from_`: it leaves exactly 10 clk later (R84). -/
def Ans.refusal (r : Req) (self : Option Nat) (from_ : Nat) : Ans :=
  { txn := r.txn, src := r.src, rop := r.op, self := self, due := from_ + 10, flight := none, home := none, waitEv := false
    exact := true }

/-- The answer of a flit that has not arrived: it leaves 10 clk after the flit sat in the input register, and its credit is returned in
the clk of that answer (R95, R206, R306). -/
def Ans.turnedAway (txn src : BitVec 12) (now : Nat) (l : Lane) : Ans :=
  { txn := txn, src := src, rop := 0, self := none, due := now + 10, flight := none, home := none, waitEv := false
    exact := true, crd := some l }

/-- Answer without data (R43): RSP to the requester, or an internal answer to a request of the slice's own. -/
def Sw.answer (s : Sw) (p : Params) (a : Ans) (op status : BitVec 8) (state : BitVec 3) : Sw :=
  let body : Body := match a.self with
    | some id => .self id status (op == rRETRY) none
    | none => .rsp ⟨op, a.txn, a.src, p.sliceRid, status, state⟩
  (s.respond ⟨s.pipe.nextSeq, a.due, body, a.flight, a.home, none, a.waitEv, a.rop, a.exact, a.crd⟩).onPipe
    fun q => { q with nextSeq := q.nextSeq + 1 }

/-- Answer with COMP_DATA (R44). -/
def Sw.answerData (s : Sw) (p : Params) (a : Ans) (l : Line) (state : BitVec 3) : Sw :=
  let body : Body := match a.self with
    | some id => .self id stOK false (some l)
    | none => .dat ⟨a.txn, a.src, p.sliceRid, l.poison, 1, state, l.data⟩
  (s.respond ⟨s.pipe.nextSeq, a.due, body, a.flight, a.home, none, a.waitEv, a.rop, a.exact, a.crd⟩).onPipe
    fun q => { q with nextSeq := q.nextSeq + 1 }

/-- Answer to an IO access: the same opcode with bit 7 set, from SLICE_RID, the other header fields echoed (log 33). -/
def ioAnswer (p : Params) (f : Io) (status : BitVec 8) (payload : BitVec 512) : Io :=
  { f with op := f.op ||| 0x80, src := p.sliceRid, status := status, payload := payload }

/-- Queue the answer to an IO access. -/
def Sw.answerIo (s : Sw) (p : Params) (f : Io) (due : Nat) (status : BitVec 8) (payload : BitVec 512) (apt : Option (BitVec 12 × Nat)) : Sw :=
  (s.respond ⟨s.pipe.nextSeq, due, .io (ioAnswer p f status payload), none, none, apt, false, 0, false, none⟩).onPipe
    fun q => { q with nextSeq := q.nextSeq + 1 }

/-- Bytes that a data flit writes: POISON of a group written in full is that of the flit, of a group written in part the
old bit ORed in (R72). -/
def mergePoison (old new : BitVec 8) (b n : Nat) : BitVec 8 :=
  (List.range 8).foldl (fun p k =>
    let lo := max b (16 * k)
    let hi := min (b + n) (16 * k + 16)
    let bit := 1#8 <<< k
    if lo ≥ hi then p
    else if hi - lo = 16 then (p &&& ~~~bit) ||| (new &&& bit)
    else p ||| (new &&& bit)) old

/-- Merge `n` bytes of a data flit from byte `b` into a line (R72); it heads no context, so its HDR is 0 (R71). -/
def mergeLine (l : Line) (d : Dat) (b n : Nat) : Line :=
  ⟨putBytes l.data b n (bytesN d.data b n), mergePoison l.poison d.poison b n, 0⟩

/-- A full-line write (R71, R72). -/
def fullLine (d : Dat) : Line := ⟨d.data, d.poison, 0⟩

/-- The result of an atomic on a line: the new line, whether it was performed (R269), and the line that a FETCH returns
(R270): the old value at its bytes, zero elsewhere. -/
def atomicLine (l : Line) (r : Req) (op : Nat) (d : Dat) : Line × Bool × Line :=
  let n := sizeBytes r.size
  let b := r.addr.toNat % 128
  let q := (b + 64) % 128
  let grp := b / 16
  let t := bytesN l.data b n
  let bad := bitAt l.poison grp || bitAt d.poison grp || (op == 8 && bitAt d.poison (q / 16))
  let fetched : Line := ⟨putBytes (0 : LineBits) b n t, if bad then 1#8 <<< grp else 0, 0⟩
  if bad then (⟨l.data, l.poison ||| (1#8 <<< grp), 0⟩, false, fetched)
  else (⟨putBytes l.data b n (atomicNew op n t (bytesN d.data b n) (bytesN d.data q n)), l.poison, 0⟩, true, fetched)

/-- Counts of an atomic that reached UPD (R429 ATM). -/
def Sw.countAtomic (s : Sw) (r : Req) (op : Nat) (fetch performed casFailed : Bool) : Sw :=
  let w := some r.who
  let s := if performed then s.count 5 (if fetch then 1 else 0) 1 w else s.count 5 3 1 w
  let s := if performed && (op == 9 || op == 10) then s.count 5 4 1 w else s
  if performed && op == 8 && casFailed then s.count 5 5 1 w else s

/-- A CAS that is performed and whose compare fails. -/
def casFails (l : Line) (r : Req) (op : Nat) (d : Dat) : Bool :=
  let n := sizeBytes r.size
  let b := r.addr.toNat % 128
  op == 8 && bytesN l.data b n != bytesN d.data b n

/-- The address lies in the range of `n` bytes at `base`. -/
def inRange (a base : BitVec 52) (n : Nat) : Bool := base.toNat ≤ a.toNat && a.toNat < base.toNat + n

/-- The access lies in the aperture range (R153). -/
def aptRange (p : Params) (f : Io) : Bool := inRange f.addr p.aptBase (2 ^ 26)

/-- The data of a write whose flit is missing does not exist; a request is performed only with its flit (R41). -/
def Dat.none : Dat := ⟨0, 0, 0, 0, 0, 0, 0⟩

/-- Bytes of an IO access. -/
def Io.bytes (f : Io) : Nat := f.len.toNat + 1

/-- The access crosses a 64-B boundary (R46). -/
def Io.crosses (f : Io) : Bool := f.addr.toNat % 64 + f.bytes > 64

/-- The access goes to the aperture (R350): its range comes after those of the register window and the sync window. -/
def Io.toApt (f : Io) (p : Params) : Bool :=
  !f.crosses && !inRange f.addr p.regBase 65536 && !inRange f.addr p.syncBase 131072 && aptRange p f

/-- What an IO access shows to filters. -/
def Io.who (f : Io) : Who := ⟨f.src, 0, f.priv, laddrOf f.addr⟩

/-- What it shows to filters. -/
def Cand.who : Cand → Who
  | .req e => e.r.who
  | .gth e => e.g.who
  | .io e => e.f.who

end Sys2Proof.Machine
end

