-- ==== Sys2Proof/Machine/Cache.lean ====
section
/-! DEFINITION. The cache (05): groups, ages and ways, victims, eviction buffer, side buffer, prefetch, and the memory
action of each request on the home's copy (R111 to R129). -/
namespace Sys2Proof.Machine

/-! ## Groups and ways (R114 to R118) -/

/-- The way-mask group of an access; the slice's own requests allocate under group 0 (R117). -/
def Sw.groupOf (s : Sw) (p : Params) (src : BitVec 12) : Nat :=
  if src == p.sliceRid then 0 else (sget 0 s.cache.rt src.toNat).toNat

/-- One group entry. -/
def Sw.group (s : Sw) (g : Nat) : Group := sget Group.none s.cache.groups g

/-- What an access of a requester allocates under, captured at its acceptance (R116, R117). -/
def Sw.allocFor (s : Sw) (p : Params) (src : BitVec 12) : Alloc :=
  let g := s.groupOf p src
  ⟨g, (s.group g).mask, (s.group g).mode⟩

/-- The location is held by an open transaction: for the line it writes, or until its fill has been written, if later (R117, R119). -/
def Sw.heldLoc (s : Sw) (loc : Nat) : Bool :=
  (s.home.txns.any fun t => t.way == some loc) || s.pipe.wr.any fun w => w.loc == loc && w.txn == some 256

/-- The allowed locations of an access in a set, in ascending way order (R117). -/
def Sw.allowed (s : Sw) (a : Alloc) (set : Nat) : List Nat :=
  let m := a.mask &&& s.cache.waySet
  ((waysOf m).map (locOf set)).filter fun loc => !tRetired (s.tag loc) && !s.heldLoc loc

/-- The passes of choose_way that look for age 3 (R118); three of them always suffice. -/
def Sw.agePass (s : Sw) (locs : List Nat) : Nat → Sw × Option Nat
  | 0 => (s, locs.head?)
  | fuel + 1 =>
    match locs.find? fun loc => tAge (s.tag loc) == 3 with
    | some loc => (s, some loc)
    | none =>
      let s := locs.foldl (fun s loc => s.setTag loc (withAge (s.tag loc) (tAge (s.tag loc) + 1))) s
      s.agePass locs fuel

/-- choose_way of R118: the location chosen, none when no way is allowed. -/
def Sw.chooseWay (s : Sw) (a : Alloc) (set : Nat) : Sw × Option Nat :=
  let locs := s.allowed a set
  match locs with
  | [] => (s, none)
  | _ =>
    match locs.find? fun loc => !tValid (s.tag loc) with
    | some loc => (s, some loc)
    | none => s.agePass locs 4

/-! ## The eviction buffer (R121 to R123) -/

/-- A line that is at hand goes to the eviction buffer: it enters in clk `clk`, or when an entry is free (R81, R112). -/
def Sw.toEvict (s : Sw) (line : Nat) (ln : Line) (why : EvWhy) (flight : Nat) (cls : Nat) (loc : Option Nat) (clk : Nat)
    (txn : Option Nat) : Sw :=
  s.onCache fun c => { c with
    evWait := c.evWait ++ [⟨c.nextOrd, line, ln, why, some flight, cls, s.whoOf flight, loc, clk, false, false, txn⟩]
    nextOrd := c.nextOrd + 1 }

/-- The line of a location goes to the eviction buffer: its array read starts at clk `at_` at the earliest, and only once an entry
is free (R81, R121); a line in flight is taken without a read (R79). -/
def Sw.evictRead (s : Sw) (loc : Nat) (why : EvWhy) (seq cls at_ rank : Nat) : Sw :=
  let l := tTag (s.tag loc) * 65536 + loc / 16
  match s.newest loc, s.inFlight loc with
  | some w, _ => s.toEvict l { w.line with hdr := 0 } why seq cls (some loc) (at_ + 6) none
  | none, some u => s.toEvict l { u.line with hdr := 0 } why seq cls (some loc) (at_ + 6) none
  | none, none =>
    let ord := s.cache.nextOrd
    let s := s.access ⟨pairOf loc, at_, rank, seq, none, cls, false, .evict ord, 0, some loc, none⟩
    let (s, ln, _, _) := s.readLine loc ⟨at_ + 6, none⟩
    s.onCache fun c => { c with
      evWait := c.evWait ++ [⟨ord, l, { ln with hdr := 0 }, why, some seq, cls, s.whoOf seq, some loc, at_ + 6, true, false, none⟩]
      nextOrd := ord + 1 }

/-- Every copy of a line in or on its way to the eviction buffer, with its order number. -/
def Sw.evCopies (s : Sw) (l : Nat) : List (Nat × Line) :=
  ((s.cache.ev.filter fun e => e.line == l).map fun e => (e.ord, e.ln))
    ++ (s.cache.evWait.filter fun e => e.line == l).map fun e => (e.ord, e.ln)

/-- The newest copy of a line in or on its way to the eviction buffer (R122). -/
def Sw.evLine (s : Sw) (l : Nat) : Option Line :=
  ((s.evCopies l).foldl (fun (b : Option (Nat × Line)) e => match b with
    | some x => if x.1 < e.1 then some e else some x
    | none => some e) none).map (·.2)

/-- The line is a dirty victim that is not yet in the eviction buffer (R119). -/
def Sw.victimOpen (s : Sw) (l : Nat) : Bool := s.cache.evWait.any fun e => e.line == l && e.why == .victim

/-! ## Lookup (R111, R122) -/

/-- Where the home's copy of a KIND 0 line is found. -/
inductive Hit where
  | tag (loc : Nat)
  | ev (ln : Line)
  | side (ln : Line)
  | sideWait
  | miss
  deriving DecidableEq, Repr

/-- The tag array first, then the eviction buffer, then the side buffer (R122). -/
def Sw.lookup (s : Sw) (l : Nat) : Hit :=
  match s.findCached l with
  | some loc => .tag loc
  | none =>
    match s.evLine l with
    | some ln => .ev ln
    | none =>
      match s.cache.side.find? fun e => e.line == l with
      | some e => match e.ln with
        | some ln => .side ln
        | none => .sideWait
      | none => .miss

/-- Free the side-buffer entry of a line. -/
def Sw.freeSide (s : Sw) (l : Nat) : Sw := s.onCache fun c => { c with side := c.side.filter fun e => e.line != l }

/-- Keep the tag entry that a cancelled write of a location puts back: that of its last commit. -/
def Sw.keepTag (s : Sw) (loc : Nat) (w : BitVec 64) : Sw :=
  if (s.writing loc || s.heldLoc loc) && s.pipe.undo.any (fun e => e.1 == loc) then s
  else s.onPipe fun p => { p with undo := sput p.undo loc w }

/-- AGE := 0 and PREFETCHED := 0 on a hit (R112, R126); DIRTY := 1 when the request writes. -/
def Sw.touch (s : Sw) (loc : Nat) (dirty : Bool) : Sw :=
  let w := withPref (withAge (s.tag loc) 0) false
  let s := if dirty then s.keepTag loc (s.tag loc) else s
  s.setTag loc (if dirty then withDirty w true else w)

/-- Remove what a location holds: a dirty victim is read and enters the eviction buffer, a clean one is dropped (R119); a repair
of the old line has nothing left to do. -/
def Sw.evictAt (s : Sw) (loc seq cls at_ : Nat) : Sw :=
  let w := s.tag loc
  if !tValid w then s
  else
    let s := if tPref w then s.count 1 7 1 none else s
    let s := if tDirty w then s.evictRead loc .victim seq cls at_ 1 else s
    (s.onPipe fun p => { p with
      acc := p.acc.filter fun a => match a.job with
        | .fix l _ _ => l != loc
        | _ => true
      uses := p.uses.filter fun u => u.loc != loc }).onArr fun a => { a with lost := a.lost.filter fun e => e.1 != loc }

/-- Take a location for a new KIND 0 line (R119). -/
def Sw.install (s : Sw) (loc l seq cls at_ : Nat) (dirty : Bool) (age : Nat) (pref : Bool) : Sw :=
  ((s.evictAt loc seq cls at_).keepTag loc (clearedTag (s.tag loc))).setTag loc (tagWord (tagOf l) true dirty age (tRetired (s.tag loc)) 0 0 pref)

/-! ## Reads waiting for the memory port -/

/-- A memory read is decided (R179). -/
def Sw.memRead (s : Sw) (t : Txn) (kind : Nat) : Sw :=
  s.onMp fun m => { m with wait := m.wait ++
    [⟨.txn t.idx, t.line, t.r.qos.toNat, if t.r.dlValid then some t.df else none,
      t.seq, kind, t.r.src, t.r.priv⟩] }

/-! ## Prefetch (R124 to R128) -/

/-- Transaction entries reserved by the head ticket: up to two, as they become free (R192). -/
def Sw.ticketRsv (s : Sw) : Nat := match s.home.tickets with
  | [] => 0
  | _ => min 2 (256 - s.home.txns.length)

/-- Free entries of the home transaction table that nothing reserves. -/
def Sw.freeTxns (s : Sw) : Nat := 256 - s.home.txns.length - s.ticketRsv

/-- A free index of the home transaction table: the tag of its snoops (R42); 256 where none is free. -/
def Sw.freeIdx (s : Sw) : Nat := (s.freeNumber 2 256 fun i => s.home.txns.any fun t => t.idx == i).getD 256

/-- The line has an open transaction, or counts as open (R185, R119). -/
def Sw.isOpen (s : Sw) (l : Nat) : Bool := s.home.txns.any (fun t => t.line == l) || s.victimOpen l

/-- A blank transaction of the slice's own. -/
def Txn.blank (idx seq acc line : Nat) (kind : TxnKind) (r : Req) (a : Alloc) (frame : Nat) : Txn :=
  { idx := idx, seq := seq, acc := acc, kind := kind, r := r, df := 0, wdat := none, line := line, dirKey := none, base := 0
    snpOp := 0, fwdOk := false, toSnoop := [], await := [], ownerAns := none, fwdData := none, answers := [], last := acc
    alloc := a, way := none, resd := false, drop := false
    got := none, reading := false, evict := none, next := 0, ph := .mem, ackFrom := none, acked := false, needAck := false, side := false
    born := frame, self := none, recalled := false, aborted := false }

/-- A candidate is dropped and counted (R124). -/
def Sw.dropCandidate (s : Sw) (t : Txn) : Sw := s.count 1 6 1 (some t.r.who)

/-- A prefetch of line `n` begins: it takes a transaction entry and its memory read is decided (R124, R125). -/
def Sw.startPrefetch (s : Sw) (t : Txn) (n : Nat) (way : Option Nat) (side : Bool) : Sw :=
  let tx := Txn.blank s.freeIdx t.seq t.acc n .prefetch { t.r with addr := s.map.addr n ++ (0 : BitVec 7) } t.alloc s.fr.frameNo
  let tx := { tx with way := way, side := side }
  (s.onHome fun h => { h with txns := h.txns ++ [tx] }).memRead tx 2

/-- A SIDE candidate reserves a side-buffer entry, in place of the line that was filled earliest when none is free (R128); so too when
some of the entries still wait for their data (log 108). -/
def Sw.sideCandidate (s : Sw) (t : Txn) (n : Nat) : Sw :=
  let begin_ (s : Sw) : Sw := (s.onCache fun c => { c with side := c.side ++ [⟨n, none, 0⟩] }).startPrefetch t n none true
  if s.cache.side.length < 32 then begin_ s
  else
    match minBy (fun (e : Side) => e.ord) (s.cache.side.filter fun e => e.ln.isSome) with
    | none => s.dropCandidate t
    | some e => begin_ ((s.freeSide e.line).count 1 7 1 none)

/-- One prefetch candidate of a trigger (R124, R126, R128). -/
def Sw.candidate (s : Sw) (t : Txn) (l : Int) (side : Bool) : Sw :=
  if l < 0 || l ≥ 2 ^ 45 then s.dropCandidate t
  else
    let n := l.toNat
    let s := if setOf n == setOf t.line then s else s.checkTags (setOf n)
    if (s.findLine n).isSome || !(s.evCopies n).isEmpty || s.cache.side.any (fun e => e.line == n) || s.isOpen n
      || s.freeTxns < 32 then s.dropCandidate t
    else if side then s.sideCandidate t n
    else
      match s.chooseWay t.alloc (setOf n) with
      | (s, none) => s.dropCandidate t
      | (s, some loc) => (s.install loc n t.seq t.r.qos.toNat (t.acc + 12) false 3 true).startPrefetch t n (some loc) false

/-- Key of detector `d` of a group. -/
def detKey (g d : Nat) : Nat := 4 * g + d

/-- The update of R127; the candidates it proposes, nearest first. -/
def Sw.train (s : Sw) (g : Nat) (l : Int) : Sw × List Int :=
  let det (d : Nat) : Det := sget Det.clear s.cache.det (detKey g d)
  let set_ (s : Sw) (d : Nat) (v : Det) : Sw :=
    s.onCache fun c => { c with det := sset Det.clear c.det (detKey g d) v }
  match (List.range 4).find? fun d => l != (det d).last && (l - (det d).last).natAbs ≤ 64 with
  | none =>
    if (List.range 4).any fun d => (det d).last == l then (s, [])
    else
      let ptr := sget 0 s.cache.detPtr g
      let s := s.onCache fun c => { c with detPtr := sset 0 c.detPtr g ((ptr + 1) % 4) }
      (set_ s ptr ⟨l, 0, 0⟩, [])
  | some d =>
    let e := det d
    let st := l - e.last
    let v : Det := if st == e.stride then ⟨l, e.stride, min (e.conf + 1) 3⟩ else ⟨l, st, 1⟩
    (set_ s d v, if v.conf ≥ 2 then [l + v.stride, l + 2 * v.stride] else [])

/-- Prefetches are issued, which QUIESCING and QUIESCED stop (R340). -/
def Sw.prefetching (s : Sw) : Bool := s.life.st != .quiescing && s.life.st != .quiesced

/-- Prefetch activity of a demand miss or a side-buffer hit (R126, R127). -/
def Sw.prefetch (s : Sw) (t : Txn) (miss : Bool) : Sw :=
  if t.r.noAlloc then s
  else
    match t.alloc.mode.toNat with
    | 1 => if miss && s.prefetching then s.candidate t ((t.line : Int) + 1) false else s
    | 2 =>
      let (s, cs) := s.train t.alloc.grp t.line
      if s.prefetching then cs.foldl (fun s c => s.candidate t c true) s else s
    | _ => s

/-! ## The request on the home's copy (R112, R113, R122, R129) -/

/-- AGE of a line that a request allocates (R113, R129). -/
def Txn.age (t : Txn) : Nat := if t.r.streaming then 3 else 1

/-- Answer of a request at its minimum figure (R84). -/
def Txn.ans (t : Txn) (due : Nat) (waitEv exact : Bool) : Ans :=
  { txn := t.r.txn, src := t.r.src, rop := t.r.op, self := t.self, due := due, flight := some t.seq
    home := if t.idx < 256 then some t.idx else none, waitEv := waitEv, exact := exact }

/-- COMP with the state granted. -/
def Sw.comp (s : Sw) (p : Params) (t : Txn) (due : Nat) (state : BitVec 3) : Sw :=
  s.answer p (t.ans due false false) rCOMP stOK state

/-- COMP_DATA with the state granted. -/
def Sw.compData (s : Sw) (p : Params) (t : Txn) (ln : Line) (due : Nat) (state : BitVec 3) : Sw :=
  let (s, ln) := s.carry t.seq ln
  s.answerData p (t.ans due false false) ln state

/-- A write, partial write or atomic applied to the current line: the new line and, for an atomic, what a FETCH returns. -/
def Sw.modify (s : Sw) (t : Txn) (cur : Line) : Sw × Line × Option Line :=
  let d := t.wdat.getD Dat.none
  match kindOf t.r.op with
  | some .writePart => (s, mergeLine cur d (t.r.addr.toNat % 128) (sizeBytes t.r.size), none)
  | some (.atomic op fetch) =>
    let (ln, done_, old) := atomicLine cur t.r op d
    let s := s.countAtomic t.r op fetch done_ (casFails cur t.r op d)
    let s := if t.recalled then s.count 5 2 1 (some t.r.who) else s
    (s, ln, if fetch then some old else none)
  | _ => (s, fullLine d, none)

/-- The completion of a write, partial write or atomic: COMP 24 clk, or COMP_DATA 40 clk, after clk `base` (R84), and no earlier
than clk `from_`. -/
def Sw.respondTo (s : Sw) (p : Params) (t : Txn) (old : Option Line) (base from_ : Nat) (waitEv exact : Bool) : Sw :=
  match old with
  | some ln =>
    let (s, ln) := s.carry t.seq ln
    s.answerData p (t.ans (max from_ (base + 40)) waitEv exact) ln 0
  | none => s.answer p (t.ans (max from_ (base + 24)) waitEv exact) rCOMP stOK 0

/-- Queue the array write of a line for a request. -/
def Sw.wrLine (s : Sw) (t : Txn) (loc : Nat) (ln : Line) (nominal rank : Nat) (dirty : Bool) : Sw :=
  let (s, ln) := s.carry t.seq ln
  s.writeLine ⟨t.seq, loc, ln, dirty, some t.seq, if t.idx < 256 then some t.idx else none, none⟩ nominal rank t.r.qos.toNat

/-- Queue the array write of the line that a memory read has returned: its data is forwarded, and the answer does not wait for the
write (R83; log 106). -/
def Sw.wrFill (s : Sw) (t : Txn) (loc : Nat) (ln : Line) : Sw :=
  let (s, ln) := s.carry t.seq ln
  s.queueWrite ⟨t.seq, loc, ln, false, some t.seq, if t.idx < 256 then some t.idx else none, none⟩ s.fr.clk 1 t.r.qos.toNat none

/-- The array read of a line for a request, from clk `at_` on; a line in flight is taken without an access (R79). -/
def Sw.rdLine (s : Sw) (t : Txn) (loc at_ rank : Nat) : Sw × Line :=
  let (s, ln, _) := s.takeLine t.seq loc at_ rank t.r.qos.toNat
  (s, ln)

/-- Rank of a request's accesses (R77). -/
def Sw.rankOf (s : Sw) (seq : Nat) : Nat :=
  if s.pipe.flights.any fun f => f.id == seq && f.locked then 0 else 1

/-- Allocate for a request: its way, or none under NO_ALLOC; when choose_way returns none, the access proceeds as if NO_ALLOC
were set (R112, R118). -/
def Sw.allocate (s : Sw) (t : Txn) (dirty : Bool) : Sw × Txn :=
  if t.r.noAlloc then (s, t)
  else
    match s.chooseWay t.alloc (setOf t.line) with
    | (s, none) => (s, { t with r := { t.r with noAlloc := true } })
    | (s, some loc) =>
      (s.install loc t.line t.seq t.r.qos.toNat (max (t.acc + 12) s.fr.clk) dirty t.age false, { t with way := some loc })

/-- The memory read of a request is decided, and the way of its fill chosen with it (R119, R179). An Upgrade takes no cache
action (R112). -/
def Sw.decideRead (s : Sw) (t : Txn) (alloc dirty : Bool) : Sw × Txn :=
  let (s, t) := if alloc then s.allocate t dirty else (s, t)
  (s.memRead t 0, { t with reading := true })

/-- The line `cur`, which is not in the array, is written, merged or operated on: into the way held for it, with the array write
at clk `nominal`, or on its way to memory (R112, R113). -/
def Sw.mergeInto (s : Sw) (p : Params) (t : Txn) (cur : Line) (nominal rank base from_ : Nat) : Sw × Txn :=
  let (s, ln, old) := s.modify t cur
  match t.way with
  | some loc => ((s.wrLine t loc ln nominal rank false).respondTo p t old base from_ false false, { t with ph := .resp })
  | none =>
    let (s, ln) := s.carry t.seq ln
    let s := s.toEvict t.line ln .noAlloc t.seq t.r.qos.toNat none (base + 21) none
    (s.respondTo p t old base from_ true false, { t with ph := .resp })

/-- A write, partial write or atomic whose old line is at hand, or not needed, and which is not in the tag array. -/
def Sw.writeMiss (s : Sw) (p : Params) (t : Txn) (cur : Line) (rank : Nat) : Sw × Txn :=
  let (s, t) := s.allocate t true
  s.mergeInto p t cur (max (t.last + 20) s.fr.clk) rank t.last 0

/-- The line is in the tag array and is written, merged or operated on: `read` says that its old value is read (R75). -/
def Sw.writeHit (s : Sw) (p : Params) (t : Txn) (loc rank : Nat) (read : Bool) : Sw × Txn :=
  let s := if t.resd then (s.keepTag loc (s.tag loc)).setTag loc (withDirty (s.tag loc) true) else s.touch loc true
  let (s, cur) := if read then s.rdLine t loc (t.last + 12) rank else ((s.checkMeta loc ⟨t.last + 18, some t.seq⟩).1, s.peekLine loc)
  let (s, ln, old) := s.modify t cur
  ((s.wrLine t loc ln (t.last + 20) rank false).respondTo p t old t.last 0 false false, { t with ph := .resp })

/-- WriteBack and WriteInvalidate: no memory read (R112). A way chosen at RES is there already (R120). -/
def Sw.performFull (s : Sw) (p : Params) (t : Txn) (rank : Nat) : Sw × Txn :=
  if t.resd && t.got.isSome then s.mergeInto p t Line.zero (max (t.last + 20) s.fr.clk) rank t.last 0
  else match s.lookup t.line with
    | .tag loc => s.writeHit p t loc rank false
    | .side _ => (s.freeSide t.line).writeMiss p t Line.zero rank
    | _ => s.writeMiss p t Line.zero rank

/-- WritePartial and atomics: the old line is read first (R112, R122, R129). -/
def Sw.performMerge (s : Sw) (p : Params) (t : Txn) (rank : Nat) : Sw × Txn :=
  match t.got with
  | some cur => s.mergeInto p t cur (max (t.last + 20) s.fr.clk) rank t.last 0
  | none =>
    match s.lookup t.line with
    | .tag loc => s.writeHit p t loc rank true
    | .ev ln => s.writeMiss p t ln rank
    | .side ln => (s.freeSide t.line).writeMiss p t ln rank
    | _ =>
      let (s, t) := s.decideRead t true true
      (s, { t with ph := .mem })

/-- An atomic whose unit was reset before its UPD is answered with ABORTED and changes no line (R414, R415): a way held for a
line that has not come is given back, and SNP_DATA written for it stays. -/
def Sw.abortAtomic (s : Sw) (p : Params) (t : Txn) : Sw × Txn :=
  let s := match t.way with
    | some loc => if (t.reading || t.got.isSome) && !t.drop then s.setTag loc (clearedTag (s.tag loc)) else s
    | none => s
  ((s.answer p (t.ans (max (t.last + 10) s.fr.clk) false true) rERROR stABORTED 0).count 5 7 1 (some t.r.who),
    { t with ph := .resp, way := none, drop := true })

/-- A line of the side buffer moves into the cache for a read; none when it may not allocate (R129). -/
def Sw.moveSide (s : Sw) (t : Txn) (ln : Line) : Sw × Txn :=
  let (s, t) := (s.freeSide t.line).allocate t false
  match t.way with
  | some loc => (s.wrLine t loc ln (max (t.last + 20) s.fr.clk) 1 false, t)
  | none => (s, t)

/-- A read, or an Upgrade that acts as ReadUnique, served with the home's data (R112, R122, R129, R179). -/
def Sw.performRead (s : Sw) (p : Params) (t : Txn) (st : BitVec 3) (rank : Nat) : Sw × Txn :=
  let alloc := kindOf t.r.op != some .upgrade
  match t.got with
  | some ln =>
    let s := match t.way with
      | some loc => s.wrFill t loc ln
      | none => s
    (s.compData p t ln (t.last + 40) st, { t with ph := .resp })
  | none =>
    match s.lookup t.line with
    | .tag loc =>
      let s := if alloc && !t.resd then s.touch loc false else s
      let (s, ln) := s.rdLine t loc (t.last + 12) rank
      (s.compData p t ln (t.last + 40) st, { t with ph := .resp })
    | .ev ln => (s.compData p t ln (t.last + 40) st, { t with ph := .resp })
    | .side ln =>
      let (s, t) := if alloc then s.moveSide t ln else (s, t)
      (s.compData p t ln (t.last + 40) st, { t with ph := .resp })
    | _ =>
      let (s, t) := s.decideRead t alloc false
      (s, { t with ph := .mem })

/-- CleanInvalidate once no upstream copy remains (R112, R203). -/
def Sw.performClean (s : Sw) (p : Params) (t : Txn) (rank : Nat) : Sw × Txn :=
  let done_ (s : Sw) : Sw × Txn := (s.comp p t (t.last + 24) 0, { t with ph := .resp })
  match s.lookup t.line with
  | .tag loc =>
    let s := if s.dirtyAt loc then s.evictRead loc .clean t.seq t.r.qos.toNat (t.last + 12) rank else s
    let s := s.setTag loc (clearedTag (s.tag loc))
    if (s.evCopies t.line).isEmpty then done_ s else (s, { t with ph := .memWr })
  | .ev _ => (s, { t with ph := .memWr })
  | .side _ => done_ (s.freeSide t.line)
  | _ => done_ s

/-- Perform a request on the home's copy once no snoop is awaited (R112, R179). The state granted is `st`. -/
def Sw.perform (s : Sw) (p : Params) (t : Txn) (st : BitVec 3) : Sw × Txn :=
  let rank := s.rankOf t.seq
  match kindOf t.r.op with
  | none => (s, t)
  | some .evictClean => (s.comp p t (t.last + 24) 0, { t with ph := .resp })
  | some .cleanInv => s.performClean p t rank
  | some .writeBack => s.performFull p t rank
  | some .writeInv => s.performFull p t rank
  | some .writePart => s.performMerge p t rank
  | some (.atomic _ _) => if t.aborted then s.abortAtomic p t else s.performMerge p t rank
  | some _ => s.performRead p t st rank

/-- A transaction's memory read has returned its line, or its line was at hand (R83): the data is forwarded, or merged and
written; the answer leaves no earlier than clk `from_`, and COMP_DATA no earlier than the 40 clk of a hit (log 95). -/
def Sw.fillNow (s : Sw) (p : Params) (t : Txn) (ln : Line) (st : BitVec 3) (from_ : Nat) : Sw × Txn :=
  let now := s.fr.clk
  let t := { t with got := some ln, reading := false }
  match t.kind with
  | .prefetch =>
    if t.side then
      let s := s.onCache fun c => { c with
        side := updAll (fun e => e.line == t.line) (fun e => { e with ln := some ln, ord := c.nextOrd }) c.side
        nextOrd := c.nextOrd + 1 }
      (s, { t with ph := .done })
    else
      match t.way with
      | some loc => (s.wrFill t loc ln, { t with ph := .done })
      | none => (s, { t with ph := .done })
  | _ =>
    match kindOf t.r.op with
    | some .writePart => s.mergeInto p t ln now 1 (max t.last (now - 21)) from_
    | some (.atomic _ _) =>
      if t.aborted then s.abortAtomic p t else s.mergeInto p t ln now 1 (max t.last (now - 21)) from_
    | _ =>
      let s := match t.way with
        | some loc => s.wrFill t loc ln
        | none => s
      let (s, ln) := s.carry t.seq ln
      (s.compData p t ln (max from_ (t.last + 40)) st, { t with ph := .resp })

/-- The line of a memory read: of no use once SNP_DATA has been written over it, kept while snoops are outstanding, and only
filled when the answer was given without it (R178, R179, R181). -/
def Sw.fillArrived (s : Sw) (p : Params) (t : Txn) (ln : Line) (st : BitVec 3) : Sw × Txn :=
  if t.drop then (s, { t with reading := false })
  else if t.kind == .req && t.ph == .snoop then (s, { t with got := some ln, reading := false })
  else if t.kind == .req && t.ph != .mem then
    (match t.way with
      | some loc => s.wrFill t loc ln
      | none => s, { t with reading := false })
  else s.fillNow p t ln st (s.fr.clk + 6)

/-- SNP_DATA written into the home's copy as a WriteBack from the snooped agent, under that agent's group (R117, R178): AGE, which
a WriteBack has no attribute to set otherwise, is that of a write without STREAMING and NO_ALLOC (log 91). -/
def Sw.snpWrite (s : Sw) (p : Params) (t : Txn) (agent : BitVec 12) (ln : Line) : Sw × Txn :=
  let now := s.fr.clk
  let t := { t with drop := true, got := none }
  let s := s.checkTags (setOf t.line)
  match s.findCached t.line with
  | some loc => ((s.touch loc true).wrLine t loc ln now 1 false, { t with way := some loc })
  | none =>
    let s := s.freeSide t.line
    match s.chooseWay (s.allocFor p agent) (setOf t.line) with
    | (s, some loc) =>
      let s := s.install loc t.line t.seq t.r.qos.toNat now true 1 false
      (s.wrLine t loc ln now 1 false, { t with way := some loc })
    | (s, none) => (s.toEvict t.line ln .noAlloc t.seq t.r.qos.toNat none now (if t.kind == .evict then some t.idx else none), t)

end Sys2Proof.Machine
end

