-- ==== Sys2Proof/Machine/Contribute.lean ====
section
/-! DEFINITION. Contributions and closes of gather contexts (09): element decoding, the update of each mode, the header,
and the readout entry of a close (R214 to R236, R443). -/
namespace Sys2Proof.Machine

/-- The lines and header fields of a context while a contribution updates it. -/
structure Work where
  lines : List LineBits
  loss : Bool
  ovf : Bool
  poison : Bool
  maxexp : Nat
  deriving DecidableEq, Repr

/-- A 16-byte accumulator of a context: line and byte position (R222). -/
def Work.acc (w : Work) (li pos : Nat) : Acc := accOf (bytesN (w.lines.getD li 0) pos 16)

/-- Store bytes in a line of the context. -/
def Work.put (w : Work) (li pos n v : Nat) : Work :=
  { w with lines := w.lines.set li (putBytes (w.lines.getD li 0) pos n v) }

/-- Add an exact addend to accumulator number `i` counted from line `l0`, resolving it when asked (R226). -/
def Work.add (w : Work) (l0 i : Nat) (a : Int) (res : Bool) : Work :=
  let li := l0 + i / 8
  let pos := 16 * (i % 8)
  let x := exactUpdate (w.acc li pos) a
  if res then
    let (y, o) := resolve x
    { w.put li pos 16 (accBits y) with ovf := w.ovf || o }
  else w.put li pos 16 (accBits x)

/-- Resolve accumulator number `i` counted from line `l0` (R226). -/
def Work.resolve (w : Work) (l0 i : Nat) : Work :=
  let (y, o) := Machine.resolve (w.acc (l0 + i / 8) (16 * (i % 8)))
  { w.put (l0 + i / 8) (16 * (i % 8)) 16 (accBits y) with ovf := w.ovf || o }

/-- Bytes `b` to `b + n - 1` touch a poisoned group (R216). -/
def poisoned (p : BitVec 8) (b n : Nat) : Bool := bitAt p (b / 16) || bitAt p ((b + n - 1) / 16)

/-- Record what an input shows in the header: MAXEXP, and OVF for Inf or NaN (R219, R220). -/
def Work.see (w : Work) (x : Num) : Work :=
  { w with
    maxexp := max w.maxexp (maxExpOf x)
    ovf := w.ovf || match x with
      | .fin _ _ _ => false
      | _ => true }

/-- Element `k` of a contribution: none when it is poisoned (R214, R216). -/
def elemOf (t : Template) (g : Gth) (k : Nat) : Option (Nat × Num) :=
  let n := elemSize t.infmt
  if poisoned g.poison (n * k) n then none
  else
    let x := bytesN g.payload (n * k) n
    some (x, numOf t.infmt x)

/-- EXACT with elements of INFMT 0 to 6 (R225, R226, R228). -/
def Work.exact (w : Work) (t : Template) (g : Gth) (res : Bool) : Work :=
  (List.range t.n).foldl (fun w k =>
    match elemOf t g k with
    | none => { w with poison := true }
    | some (_, x) =>
      let w := w.see x
      let (a, f) := addend t.anchor x
      let w := ({ w with loss := w.loss || f.loss, ovf := w.ovf || f.ovf }).add 0 k a res
      if t.sumsq then
        let (b, f) := sqAddend t.sqanchor x
        ({ w with loss := w.loss || f.loss, ovf := w.ovf || f.ovf }).add (t.n / 8) k b res
      else w) w

/-- PART of an FX96 payload (R230). -/
def fxPart (g : Gth) : Nat := byteN g.payload 120

/-- LAST of an FX96 payload (R230). -/
def fxLast (g : Gth) : Bool := (byteN g.payload 121).testBit 0

/-- PART in range for the template (R215, R230). -/
def fxPartOk (t : Template) (g : Gth) : Bool := fxPart g < t.parts

/-- One FX96 part (R229, R230). -/
def Work.fx96 (w : Work) (t : Template) (g : Gth) : Work :=
  let pp := (t.n + 9) / 10
  let p := fxPart g
  let fl := byteN g.payload 121
  let w := { w with
    loss := w.loss || fl.testBit 1, ovf := w.ovf || fl.testBit 2
    maxexp := max w.maxexp (bytesN g.payload 122 2 % 512) }
  let l0 := if p < pp then 0 else t.n / 8
  let first := 10 * (if p < pp then p else p - pp)
  (List.range 10).foldl (fun w i =>
    if first + i < t.n then
      if poisoned g.poison (12 * i) 12 then { w with poison := true }
      else w.add l0 (first + i) (sextN 96 (bytesN g.payload (12 * i) 12)) true
    else w) w

/-- A TREE16 slot (R231): a poisoned element folds as +0. -/
def Work.tree (w : Work) (t : Template) (g : Gth) : Work :=
  (List.range t.n).foldl (fun w k =>
    match elemOf t g k with
    | none => { w with poison := true }.put g.cidx.toNat (4 * k) 4 0
    | some (_, x) => (w.see x).put g.cidx.toNat (4 * k) 4 (toFp32 x)) w

/-- INT (R233). -/
def Work.int (w : Work) (t : Template) (g : Gth) (arms : Bool) : Work :=
  (List.range t.n).foldl (fun w k =>
    match elemOf t g k with
    | none =>
      let w := { w with poison := true }
      if arms then w.put 0 (4 * k) 4 0 else w
    | some (raw, x) =>
      let w := w.see x
      let v := ((sextN (8 * elemSize t.infmt) raw) % 2 ^ 32).toNat
      if arms then w.put 0 (4 * k) 4 v
      else
        let (y, o) := intAdd t.opt (bytesN (w.lines.getD 0 0) (4 * k) 4) v
        { w.put 0 (4 * k) 4 y with ovf := w.ovf || o }) w

/-- MINMAX (R234). -/
def Work.minmax (w : Work) (t : Template) (g : Gth) (arms : Bool) : Work :=
  let fp := t.infmt.toNat ≤ 4
  let ident := if fp then (if t.opt then 0xFF800000 else 0x7F800000) else if t.opt then 0x80000000 else 0x7FFFFFFF
  (List.range t.n).foldl (fun w k =>
    match elemOf t g k with
    | none =>
      let w := { w with poison := true }
      if arms then w.put 0 (4 * k) 4 ident else w
    | some (raw, x) =>
      let w := w.see x
      let v := if fp then toFp32 x else ((sextN (8 * elemSize t.infmt) raw) % 2 ^ 32).toNat
      if arms then w.put 0 (4 * k) 4 v
      else
        let held := bytesN (w.lines.getD 0 0) (4 * k) 4
        w.put 0 (4 * k) 4 (if fp then minmaxFp t.opt held v else minmaxInt t.opt held v)) w

/-- Accumulators of an EXACT context are all resolved (R226). -/
def Work.resolveAll (w : Work) (t : Template) : Work :=
  let w := (List.range t.n).foldl (fun w i => w.resolve 0 i) w
  if t.sumsq then (List.range t.n).foldl (fun w i => w.resolve (t.n / 8) i) w else w

/-- The 16 slot values of element `k` of a TREE16 context (R231). -/
def slots (lines : List LineBits) (k : Nat) : List Nat := (List.range 16).map fun c => bytesN (lines.getD c 0) (4 * k) 4

/-- A fold result of Inf arises from finite slot values (R232). -/
def foldOvf (lines : List LineBits) (n : Nat) : Bool :=
  (List.range n).any fun k => match floatNum 8 23 127 true (tree16 (slots lines k)) with
    | .inf _ => (slots lines k).all fun x => !notFinite32 x
    | _ => false

/-- Clk for which a contribution occupies the adder (R217). -/
def adderClks (t : Template) : Nat :=
  if t.mode == 0 && t.infmt.toNat != 7 then max 1 ((if t.sumsq then 2 * t.n else t.n) / 32) else 1

/-- Change the count of armed contexts of a region (R212). -/
def Sw.armedBy (s : Sw) (r : Nat) (was is_ : Bool) : Sw :=
  if was == is_ then s
  else s.onGth fun g => { g with armed := sset 0 g.armed r (if is_ then sget 0 g.armed r + 1 else sget 0 g.armed r - 1) }

/-- The context heads of one contribution that passed every check: region, template, context number, line locations. -/
structure GthTarget where
  region : Nat
  reg : Region
  t : Template
  ctx : Nat
  locs : List Nat
  deriving DecidableEq, Repr

/-- The context that a line heads (R213). -/
def Sw.target (s : Sw) (l : Nat) : Option GthTarget :=
  match s.regionOf l with
  | none => none
  | some (r, reg) =>
    match s.template r with
    | none => none
    | some t =>
      if reg.typ != 2 then none
      else match ctxOf reg t l with
        | some (j, 0) => some ⟨r, reg, t, j, (List.range t.c).map fun k => reg.loc (l + k)⟩
        | _ => none

/-- Read every line of a context for a request: the lines with POISON, and whether the head's metadata word was lost (R75, R79,
R221). -/
def Sw.readCtx (s : Sw) (id cls rank at_ : Nat) (locs : List Nat) : Sw × List Line × Bool :=
  locs.foldl (fun (a : Sw × List Line × Bool) loc =>
    let (s, ln, lost) := a.1.takeLine id loc at_ rank cls
    (s, a.2.1 ++ [ln], if a.2.1.isEmpty then lost else a.2.2)) (s, [], false)

/-- The header of a context as a contribution finds it: one that was lost counts as zero with POISON = 1, and GTH_HDR_LOST is
raised once with the head address (R73, R221). -/
def Sw.ctxHeader (s : Sw) (loc : Nat) (head : BitVec 45) (ln : Line) (lost : Bool) : Sw × BitVec 56 :=
  if !lost then (s, ln.hdr)
  else if s.arr.lost.any fun e => e.1 == loc && e.2 then (s, hdrLost)
  else ((s.onArr fun a => { a with lost := a.lost.map fun e => if e.1 == loc then (loc, true) else e }).raise 14 head.toNat, hdrLost)

/-- What a contribution makes of its context: the work after its update, and the counts before and after. -/
structure Update where
  work : Work
  cnt : Nat
  cnt' : Nat
  closes : Bool
  round : Nat
  deriving DecidableEq, Repr

/-- The header that an update leaves (R219, R235). -/
def Update.hdr (u : Update) : BitVec 56 :=
  if u.closes then header 0 (u.round + 1) false false false true 0
  else header u.cnt' u.round u.work.loss u.work.ovf u.work.poison false u.work.maxexp

/-- One contribution applied to the lines of its context with header `h` (R226 to R235). -/
def updateCtx (t : Template) (g : Gth) (lns : List Line) (h : BitVec 56) : Update :=
  let cnt := hCount h
  let arms := cnt == 0
  let counted := !(t.infmt.toNat == 7) || fxLast g
  let cnt' := if counted then cnt + 1 else cnt
  let closes := counted && cnt' == t.expect + 1
  let resv := (arms && hPoison h) || closes || (counted && cnt' % 16 == 0)
  let w : Work := ⟨lns.map (·.data), hLoss h, hOvf h, hPoison h || lns.any (fun l => l.poison != 0), hMaxexp h⟩
  let w := match t.mode.toNat with
    | 0 => if t.infmt.toNat == 7 then w.fx96 t g else w.exact t g resv
    | 1 => w.tree t g
    | 2 => w.int t g arms
    | _ => w.minmax t g arms
  let w := if t.mode == 0 && resv then w.resolveAll t else w
  let w := if t.mode == 1 && closes then { w with ovf := w.ovf || foldOvf w.lines t.n } else w
  ⟨w, cnt, cnt', closes, hRound h⟩

/-- The line number `i` of the context that an update stores (R235, R443). -/
def Update.line (u : Update) (lns : List Line) (i : Nat) : Line :=
  ⟨if u.closes then 0 else u.work.lines.getD i 0, if u.closes then 0 else (lns.getD i Line.zero).poison, if i == 0 then u.hdr else 0⟩

/-- The readout entry of a close (R236, R239): GTIME is that of the closing contribution's acceptance. -/
def Update.entry (u : Update) (x : GthTarget) (id acc frame : Nat) (gtime : BitVec 64) (res : Bool) (tookFrom : Option Nat) : RoEnt :=
  { id := id, region := x.region, ctx := x.ctx, head := x.reg.l0 + x.ctx * x.t.c, t := x.t, owner := x.reg.owner
    lines := u.work.lines, round := BitVec.ofNat 16 u.round, fl := ⟨u.work.loss, u.work.ovf, u.work.poison, false, false⟩
    maxexp := BitVec.ofNat 9 u.work.maxexp, gtime := gtime, at_ := acc + 37, planned := false, todo := []
    status := false, open_ := 0, issuedAll := false, res := res, born := frame, said := false
    tookFrom := tookFrom }

/-- RES of a contribution accepted at clk `acc` (R226 to R236): its context is read at c12, updated, and written at c20; a close
enters the readout queue. `res` says that its readout entry is a reserved one, `tookFrom` names the close whose entry it takes over (R250); the result says
whether the context closed. -/
def Sw.contribute (s : Sw) (g : Gth) (x : GthTarget) (id acc : Nat) (gtime : BitVec 64) (locked res : Bool) (tookFrom : Option Nat) : Sw × Bool :=
  let cls := g.qos.toNat
  let rank := if locked then 0 else 1
  let (s, lns, lost) := s.readCtx id cls rank (acc + 12) x.locs
  let loc := x.locs.headD 0
  let was := hCount (s.peekLine loc).hdr != 0
  let (s, h) := s.ctxHeader loc (s.map.addr (x.reg.l0 + x.ctx * x.t.c)) (lns.headD Line.zero) lost
  let u := updateCtx x.t g lns h
  let s := x.locs.zipIdx.foldl (fun s e =>
    let (s, ln) := s.carry id (u.line lns e.2)
    s.writeLine ⟨id, e.1, ln, false, some id, none, none⟩ (acc + 20) rank cls) s
  let s := (s.armedBy x.region was (!u.closes && u.cnt' != 0)).count 4 0 1 (some g.who)
  if u.closes then (s.onGth fun q => { q with ro := q.ro ++ [u.entry x id acc s.fr.frameNo gtime res tookFrom] }, true)
  else (s, false)

/-- HDR of a close (R74): its counts and its CLOSE record (R429, R436). -/
def Sw.sayClose (s : Sw) (e : RoEnt) (w : Option Who) : Sw :=
  let s := s.count 4 3 1 w
  let s := if e.fl.loss then s.count 4 4 1 w else s
  let s := if e.fl.ovf || e.fl.poison then s.count 4 5 1 w else s
  let head := s.map.addr e.head
  s.traceLine 3 head ((e.round.toNat <<< 52) ||| (e.fl.loss.toNat <<< 68) ||| (e.fl.ovf.toNat <<< 69) ||| (e.fl.poison.toNat <<< 70)
    ||| (head.toNat <<< 80))

/-- The first clk in which an entry's first write may leave: its closing contribution's c37 (R77, R238). -/
def Sw.roAt (s : Sw) (e : RoEnt) : Nat :=
  e.at_ + ((s.pipe.flights.find? fun f => f.id == e.id).map (·.delay)).getD 0

/-- Every close whose closing contribution has come through HDR at c27. -/
def Sw.closesSaid (s : Sw) : Sw :=
  let now_ := s.gth.ro.filter fun e => !e.said && s.roAt e ≤ s.fr.clk + 10
  (now_.foldl (fun s e => s.sayClose e ((s.pipe.flights.find? fun f => f.id == e.id).map (·.who))) s).onGth fun g =>
    { g with ro := updAll (fun e => now_.any fun x => x.id == e.id) (fun e => { e with said := true }) g.ro }

/-- A contribution to the region lies between ACC and HDR (R212, R257). -/
def Sw.contribInFlight (s : Sw) (r : Nat) : Bool :=
  s.pipe.flights.any fun f => f.region == some r && s.fr.clk ≤ f.acc + f.delay + 27

/-- A close occupies a readout entry of its own: one that took over an entry shares it while the earlier close is still there (R250). -/
def Sw.roOwn (s : Sw) (e : RoEnt) : Bool := !(e.tookFrom.any fun c => s.gth.ro.any fun x => x.id == c)

/-- Readout entries in use, reserved ones when `res` (R236): closes, queued contributions, and flights before HDR. -/
def Sw.roUsed (s : Sw) (res : Bool) : Nat :=
  (s.gth.ro.filter fun e => e.res == res && s.roOwn e).length
    + ((s.q.gth ++ s.q.direct.toList).filter fun e => e.fwd.isNone && e.roRes == res).length
    + (s.pipe.flights.filter fun f => f.ro == some res && s.fr.clk ≤ f.acc + f.delay + 27).length

end Sys2Proof.Machine
end

