-- ==== Sys2Proof/Machine/Frame.lean ====
section
/-! DEFINITION. The frame (04): Stake entries, the end of a frame, the actions of a frame boundary, the throttle scaling
and the missed guarantees of 13 (R85 to R94, R309, R312, R317, R426, R427). -/
namespace Sys2Proof.Machine

/-! ## Stake entries (R90, R92, R94) -/

def eClass (e : BitVec 32) : Nat := fldN e 0 6
def eChan (e : BitVec 32) : Nat := fldN e 6 2
def eValid (e : BitVec 32) : Bool := bitAt e 8
def eLock (e : BitVec 32) : Bool := bitAt e 9

/-- Well formed under R92. -/
def entryOk (e : BitVec 32) : Bool :=
  fldN e 10 22 == 0 && (eValid e || e == 0) && (!eLock e || (eValid e && eChan e != 3)) && (eChan e != 3 || eClass e == 0)

/-- One copy of the table. -/
def Frame.copy (f : Frame) : Copy → Sparse (BitVec 32)
  | .a => f.copyA
  | .b => f.copyB

/-- The copy that is not active. -/
def Copy.other : Copy → Copy
  | .a => .b
  | .b => .a

/-- Number of a copy: 0 A, 1 B. -/
def Copy.num : Copy → Nat
  | .a => 0
  | .b => 1

/-- The entry that governs the slot at frame clk `n` (R90, R427). -/
def Frame.entry (f : Frame) (n : Nat) : BitVec 32 :=
  match f.switch with
  | some w => sget 0 (f.copy (if n % 8 < w.steps then w.dest else f.active)) n
  | none => sget 0 (f.copy f.active) n

/-- The entries that govern slots of a frame (R94, R427). -/
def Frame.governing (f : Frame) : List (BitVec 32) :=
  let act := (f.copy f.active).filter fun e => e.1 < f.len
  match f.switch with
  | some w =>
    if w.steps == 0 then act.map (·.2)
    else (act.filter fun e => !(e.1 % 8 < w.steps)).map (·.2)
      ++ ((f.copy w.dest).filter fun e => e.1 < f.len && e.1 % 8 < w.steps).map (·.2)
  | none => act.map (·.2)

/-- A class is locked-only on a channel (R94): 0 REQ, 1 GTH, 2 IO. -/
def Frame.lockedOnly (f : Frame) (c ch : Nat) : Bool :=
  f.governing.any fun e => eValid e && eLock e && eClass e == c && eChan e == ch

/-- Locked entries of a copy among entries 0 to FRAME_CLKS - 1 (R313). -/
def lockedCount (t : Sparse (BitVec 32)) (len : Nat) : Nat :=
  (t.filter fun e => e.1 < len && eValid e.2 && eLock e.2).length

/-- V of R427. -/
def validCount (t : Sparse (BitVec 32)) (len : Nat) : Nat :=
  (t.filter fun e => e.1 < len && eValid e.2 && eChan e.2 != 3).length

/-- Background entries of a copy (R101). -/
def bgCount (t : Sparse (BitVec 32)) (len : Nat) : Nat :=
  (t.filter fun e => e.1 < len && eValid e.2 && eChan e.2 == 3).length

/-! ## Memory budget (R51, R309, R312) -/

/-- B_L of R309. -/
def issueLimit (level : BitVec 2) : Nat := 64 - 16 * level.toNat

/-- cap_L of R309. -/
def capLines (level : BitVec 2) (len : Nat) : Nat := issueLimit level * len / 128

/-- Sums of the admitted minimums (R313). -/
def Qos.sumMiss (q : Qos) : Nat := sumNat (q.cls.map fun e => e.2.minMiss)
def Qos.sumSlots (q : Qos) : Nat := sumNat (q.cls.map fun e => e.2.minSlots)
def Qos.sumRsv (q : Qos) : Nat := sumNat (q.cls.map fun e => e.2.qRsv)

/-- The minimums in force for the frame (R312). -/
def Sw.scaleMins (s : Sw) : Sw :=
  let cap := capLines s.mp.level s.fr.len
  let sum := s.qos.sumMiss
  let scaled := sum > cap
  let eff := s.qos.cls.foldl (fun m e => sset 0 m e.1 (if scaled then e.2.minMiss * cap / sum else e.2.minMiss)) []
  let s := (s.onMp fun m => { m with effMin := eff }).onQos fun q => { q with scaled := scaled }
  if scaled then s.count 7 7 1 none else s

/-! ## Requests in the queues (R93, R96) -/

/-- Eligible REQ requests: those in the request queue; a flit that waits in the input register (R305) is not eligible (log 107). -/
def Sw.reqReady (s : Sw) : List ReqEnt := s.q.req.filter fun e => e.complete && e.arr ≤ s.fr.clk

/-- Eligible contributions, the one held for direct acceptance included. -/
def Sw.gthReady (s : Sw) : List GthEnt := (s.q.direct.toList ++ s.q.gth).filter fun e => e.arr ≤ s.fr.clk

/-- Eligible IO accesses; aperture accesses wait while APERTURE_SET runs (R156). -/
def Sw.ioReady (s : Sw) (p : Params) : List IoEnt :=
  s.q.io.filter fun e => e.arr ≤ s.fr.clk && !(!s.pin.aptNext.isEmpty && aptRange p e.f)

/-- A class has a request that is eligible for a free slot of the clk `at_` (R94, R97). -/
def Sw.freeEligible (s : Sw) (p : Params) (at_ c : Nat) : Bool :=
  (!s.fr.lockedOnly c 0 && s.reqReady.any fun e => e.arr ≤ at_ && e.r.qos.toNat == c)
    || (!s.fr.lockedOnly c 1 && s.gthReady.any fun e => e.arr ≤ at_ && e.g.qos.toNat == c)
    || (c == 0 && !s.fr.lockedOnly 0 2 && (s.ioReady p).any fun e => e.arr ≤ at_)

/-! ## End of a frame (R317, R318, R433, R434) -/

/-- Records of missed SLOT and BW guarantees in clk `at_`, the last one of a frame; a DL record of the same clk has raised the
event (R317, R318). -/
def Sw.missed (s : Sw) (p : Params) (at_ : Nat) : Sw :=
  let slot := (s.qos.cls.filter fun e => sget 0 s.fr.granted e.1 < e.2.minSlots && s.freeEligible p at_ e.1).map (·.1)
  let bw := (s.qos.cls.filter fun e => sget 0 s.mp.rdGranted e.1 < e.2.minMiss
      && s.mp.wait.any fun r => r.kind == 0 && r.cls == e.1).map (·.1)
  let s := slot.foldl (fun s c => (s.onQos fun q => { q with missSlot := q.missSlot ||| (1#64 <<< c) }).countCls 7 0 c) s
  let s := bw.foldl (fun s c => (s.onQos fun q => { q with missBw := q.missBw ||| (1#64 <<< c) }).countCls 7 1 c) s
  if s.qos.dlAt == some at_ || (slot.isEmpty && bw.isEmpty) then s else s.raise 6 0

/-- A frame has ended after `n` slots, the last of them in clk `at_`: missed guarantees, counted as occurrences of that clk
(R432), its slot totals, and the boundary of the next clk. -/
def Sw.frameEnd (s : Sw) (p : Params) (n at_ : Nat) (slip : Bool) : Sw :=
  let counted := s.pmc.now
  let s := s.missed p at_
  let s := if slip then s.onPmc fun q => { q with now := counted } else s
  let s := s.onMp fun m => { m with nextLevel := m.filtered }
  s.onFr fun f => { f with
    pos := 0, due := true, cut := if slip then some n else none
    report := f.report ++ [({ f.now with total := n }, at_ + 9)], now := { SlotTot.zero with total := n } }

/-! ## Slot classes (R433, R434) -/

/-- Add a slot to the totals of its class. -/
def SlotTot.add (t : SlotTot) (c : Nat) : SlotTot :=
  match c with
  | 0 => { t with retired := t.retired + 1 }
  | 1 => { t with wasted := t.wasted + 1 }
  | 2 => { t with front := t.front + 1 }
  | _ => { t with back := t.back + 1 }

/-- The class of the slot of clk `at_` is known: it is attributed to the frame in which the slot occurred, whose totals are
written 8 clk after its boundary, and counted in the present clk (R433, R434). -/
def Sw.slotClass (s : Sw) (at_ c : Nat) (w : Option Who) : Sw :=
  (s.onFr fun f =>
    if f.report.any fun r => at_ + 8 < r.2 then
      { f with report := updFirst (fun r => at_ + 8 < r.2) (fun r => (r.1.add c, r.2)) f.report }
    else { f with now := f.now.add c }).count 0 c 1 w

/-! ## The boundary (R89) -/

/-- Step 2 of R89: a due switch, or its next step (R103, R427). -/
def Sw.switchStep (s : Sw) : Sw :=
  match s.fr.switch with
  | none => s
  | some w =>
    let f := s.fr
    if w.steps == 0 && !(w.gtime.toNat ≤ f.bGtime.toNat) then s
    else
      let ramped := w.steps > 0
        || validCount (f.copy w.dest) f.len > validCount (f.copy f.active) f.len + f.len / 8
      if ramped && w.steps < 7 then s.onFr fun f => { f with switch := some { w with steps := w.steps + 1 } }
      else (s.onFr fun f => { f with active := w.dest, switch := none, everSwitched := true }).raise 4 w.dest.num

/-- Class parameters, requester table, groups, way set and FRAME_CLKS that take effect at this boundary
(R86, R116, R135, R137, R314). A change of a group's prefetch mode clears its detectors. -/
def Sw.applyNext (s : Sw) : Sw :=
  let s := s.onFr fun f => { f with len := f.lenNext.getD f.len, lenNext := none }
  let s := s.onQos fun q => { q with cls := q.next.foldl (fun m e => sset ClassPar.default m e.1 e.2) q.cls, next := [] }
  s.onCache fun c =>
    let changed := c.groupsNext.filter fun e => (sget Group.none c.groups e.1).mode != e.2.mode
    { c with
      rt := c.rtNext.foldl (fun m e => sset 0 m e.1 e.2) c.rt, rtNext := []
      groups := c.groupsNext.foldl (fun m e => sset Group.none m e.1 e.2) c.groups, groupsNext := []
      det := c.det.filter fun d => !(changed.any fun e => e.1 == d.1 / 4)
      detPtr := c.detPtr.filter fun d => !(changed.any fun e => e.1 == d.1)
      waySet := c.waySetNext.getD c.waySet, waySetNext := none }

/-- The live counts as the last clk left them (R432). -/
def Pmc.before (p : Pmc) : Sparse (BitVec 48) :=
  p.cnt.foldl (fun m e => sset 0 m e.1 (e.2 - BitVec.ofNat 48 (sget 0 p.now e.1))) []

/-- Step 5 of R89: counter snapshot (R432), which unit 4 does not take while it is held (R414, R440), and telemetry snapshot
(R363). -/
def Sw.snapshots (s : Sw) : Sw :=
  let s :=
    if s.pmc.k == 0 || s.pmc.held then s
    else if s.pmc.since + 1 < s.pmc.k.toNat then s.onPmc fun p => { p with since := p.since + 1 }
    else if s.pmc.units < 12 then s.onPmc fun p => { p with since := 0, skipped := p.skipped + 1 }
    else s.onPmc fun p => { p with since := 0, cap := p.before, units := 0, capGtime := s.fr.bGtime }
  if s.tel.period == 0 then s
  else if s.tel.since + 1 < s.tel.period.toNat then s.onTel fun t => { t with since := t.since + 1 }
  else if s.tel.units < 4 then s.onTel fun t => { t with since := 0 }
  else s.onTel fun t => { t with since := 0, units := 0, gtimeNext := s.fr.bGtime, next := t.live }

/-- A completed scrub lap is reported at the boundary after its last unit (R401). -/
def Sw.lapReport (s : Sw) : Sw :=
  let s := s.onRep fun r => { r with unitsFrame := 0 }
  if s.rep.lapDone then
    let s := s.onRep fun r => { r with lapDone := false }
    ((s.onTel fun t => { t with live := { t.live with lap := s.rep.lastLap } }).raise 20 s.rep.lastLap.toNat).count 11 2 1 none
  else s

/-- AGE of every pending source counts the boundary (R373). -/
def Sw.ageEvents (s : Sw) : Sw :=
  s.onEvt fun e => { e with src := e.src.map fun x =>
    if x.2.pend then (x.1, { x.2 with age := if x.2.age = 255 then 255 else x.2.age + 1 }) else x }

/-- The actions of a frame boundary in the order of R89, with the ramp of R426 and the minimums of R312. -/
def Sw.boundary (s : Sw) : Sw :=
  if !s.fr.due then s
  else
    let slots := s.fr.now.total
    let slip := s.fr.cut.isSome
    let s := s.onFr fun f => { f with
      due := false, cut := none, frameNo := f.frameNo + 1, bGtime := f.gtime
      now := { SlotTot.zero with gtime := f.gtime } }
    let s := s.applyNext
    let s := s.switchStep
    let s := s.onFr fun f => { f with minPtr := 0, bePtr := 0, granted := [] }
    let s := s.onMp fun m => { m with rdPtr := 0, rdGranted := [], level := m.nextLevel }
    let s := s.scaleMins
    let run := s.life.st == .running || s.life.st == .quiescing || s.life.st == .quiesced
    let s := if run then s.onFr fun f => { f with ramp := min 8 (f.ramp + 1) } else s
    let s := s.ageEvents
    let s := s.lapReport
    let s := s.snapshots
    s.traceRec 5 s.fr.gtime ((slots <<< 52) ||| (slip.toNat <<< 66) ||| (s.fr.tickLost.toNat <<< 67))

end Sys2Proof.Machine
end

