-- ==== Sys2Proof/Machine/Marver.lean ====
section
/-! DEFINITION. Background units without a command (R100): counter snapshots (R432), telemetry samples (R363, R439),
Marver calibration and scrub (R400 to R402), and what the background writes of corrected and damaged codewords do
(R73, R382, R383, R390, R391). -/
namespace Sys2Proof.Machine

/-! ## Snapshot units (R432) -/

/-- One counter block is copied; the twelfth completes the snapshot. -/
def Sw.pmcUnit (s : Sw) : Sw :=
  let b := s.pmc.units
  let s := s.onPmc fun p => { p with
    units := b + 1
    snap := (List.range 8).foldl (fun m c => sset 0 m (8 * b + c) (sget 0 p.cap (8 * b + c))) p.snap }
  if b + 1 == 12 then
    let s := s.onPmc fun p => { p with gen := p.gen + 1, gtime := p.capGtime }
    s.raise 22 s.pmc.gen.toNat
  else s

/-! ## Telemetry units (R363, R364, R402, R439) -/

/-- Banks whose temperature in the latest sample differs by CAL_STEP or more from that of their last calibration. -/
def Sw.recal (s : Sw) : Sw :=
  s.onRep fun r => { r with
    calPend := (List.range 64).foldl (fun m b =>
      let now := (s.tel.regs.temp.getD (2 * (b / 16) + (b % 16) / 8) 0).toInt
      let old := (sget 0 r.calTemp b).toInt
      if (now - old).natAbs ≥ 8 * r.calStep then m ||| (1#64 <<< b) else m) r.calPend }

/-- One sensor set is sampled; the fourth completes the snapshot. -/
def Sw.telUnit (s : Sw) : Sw :=
  let k := s.tel.units
  let live := s.tel.live
  let s := s.onTel fun t => { t with
    units := k + 1
    sampled := if k == 0 then t.sampled + 1 else t.sampled
    next := match k with
      | 0 => { t.next with temp := (List.range 10).map fun i => Config.temperature i t.sampled }
      | 1 => { t.next with droop := live.droop }
      | 2 => { t.next with corr := live.corr, uncorr := live.uncorr, metaErr := live.metaErr, parity := live.parity }
      | _ => { t.next with lap := live.lap, lines := live.lines, cals := live.cals, calPend := s.rep.calPend } }
  if k + 1 == 4 then
    let s := s.onTel fun t => { t with regs := t.next, gtime := t.gtimeNext, gen := t.gen + 1 }
    (s.raise 24 s.tel.gen.toNat).recal
  else s

/-! ## Marver (R399 to R402) -/

/-- Every tier holds its zero fill, so the array can be read (R386, R389); Marver waits otherwise, and in a held domain. -/
def Sw.arrayUp (s : Sw) (ao : AlwaysOn) : Bool :=
  ao.tiers.all (fun t => t.st == .on) && s.life.sweep.isNone && s.life.drain.isNone && s.life.st != .fenced
    && !(ao.blockHolds.any fun b => b.unit == 3 || b.unit == 7)

/-- MAX_UNITS allows one more unit in this frame (R401). -/
def Rep.unitsOk (r : Rep) : Bool := r.maxUnits == 0 || r.unitsFrame < r.maxUnits

/-- Count a Marver unit (R401). -/
def Sw.marverUnit (s : Sw) : Sw :=
  let s := s.onRep fun r => { r with unitsFrame := r.unitsFrame + 1 }
  if s.rep.maxUnits != 0 && s.rep.unitsFrame == s.rep.maxUnits then s.count 11 6 1 none else s

/-- Calibration is pending (R402). -/
def Rep.calWork (r : Rep) : Bool := r.calEn && r.calPend != 0 && r.unitsOk

/-- Scrub is pending (R400, R401). -/
def Rep.scrubWork (r : Rep) : Bool := r.scrubEn && r.unitsOk

/-- Bank pair of a bank, numbered 16 t + b (R68, R402). -/
def bankPair (b : Nat) : Nat := (b / 16) * 8 + (b % 16) / 2

/-- One calibration unit (R402): the reference row of one subarray of the bank is read, at a candidate setting and at lowest rank on
its bank pair (R77); after the 32nd the bank takes the best setting found. The lowest pending bank follows. -/
def Sw.calUnit (s : Sw) : Sw :=
  let s := (s.marverUnit).count 11 1 1 none
  match s.rep.calBank.orElse fun _ => firstBelow 64 fun b => bitAt s.rep.calPend b with
  | none => s
  | some b =>
    let s := s.bgAccess (bankPair b) false .plain
    if s.rep.calUnits + 1 < 32 then s.onRep fun r => { r with calBank := some b, calUnits := r.calUnits + 1 }
    else
      let temp := s.tel.regs.temp.getD (2 * (b / 16) + (b % 16) / 8) 0
      let s := s.onRep fun r => { r with
        calBank := none, calUnits := 0, calPend := r.calPend &&& ~~~(1#64 <<< b), calTemp := sset 0 r.calTemp b temp
        sense := sput r.sense b (Config.senseFound b s.tel.live.cals.toNat) }
      (s.onTel fun t => { t with live := { t.live with cals := t.live.cals + 1 } }).count 11 5 1 none

/-- The sense setting that a bank uses (R402). -/
def Rep.setting (r : Rep) (b : Nat) : Nat := ((r.sense.find? fun e => e.1 == b).map (·.2)).getD (Config.senseDefault b)

/-- The scrub finds a codeword in error (R429 SCRUB). -/
def Sw.scrubCount (s : Sw) (st : Store) (cw : Nat) : Sw :=
  match s.arr.check st cw with
  | .corrected => s.count 11 3 1 none
  | .uncorrectable => s.count 11 4 1 none
  | _ => s

/-- One scrub unit (R400, R401): every codeword that it reads is checked; the data of a RETIRED location are skipped. -/
def Sw.scrubUnit (s : Sw) : Sw :=
  let u := s.rep.unit
  let set := u % 65536
  let way := u / 65536
  let loc := locOf set way
  let d := u % 131072
  let dir := d * 16 + 2 * (u / 131072)
  let s := (s.marverUnit).count 11 0 1 none
  let s := if u == 0 then s.onRep fun r => { r with lapFrom := s.fr.frameNo } else s
  let gone := tRetired (s.tag loc)
  let s := if gone then s.count 11 7 1 none else (List.range 8).foldl (fun s k => s.scrubCount .data (loc * 8 + k)) s
  let s := (((s.scrubCount .mword (loc / 2)).scrubCount .tag (loc / 2)).scrubCount .dir dir).scrubCount .dir (dir + 1)
  let s := if gone then (s.checkMeta loc ⟨s.fr.clk, none⟩).1
    else ((s.bgAccess (pairOf loc) false .plain).readLine loc ⟨s.fr.clk, none⟩).1
  let s := ((s.checkTag (loc / 2)).checkDirCode dir).checkDirCode (dir + 1)
  let s := s.onTel fun t => { t with live := { t.live with lines := BitVec.ofNat 32 (u + 1) } }
  if u + 1 == 1048576 then
    s.onRep fun r => { r with unit := 0, lapDone := true, lastLap := BitVec.ofNat 32 (s.fr.frameNo + 1 - r.lapFrom) }
  else s.onRep fun r => { r with unit := u + 1 }

/-! ## Background writes (R73, R382, R383) -/

/-- A codeword has been written in place: soft errors go, failed cells keep theirs (R382, R390); a verify read follows. -/
def Sw.cwWritten (s : Sw) (st : Store) (cw : Nat) : Sw :=
  s.onArr fun a => { a.cleanCw st cw with verify := a.verify ++ [(st, cw)] }

/-- Write the metadata word of a location. What the other word of its codeword has lost is found first (R73). -/
def Sw.putWord (s : Sw) (loc : Nat) (w : BitVec 64) : Sw :=
  let s := if s.arr.lost.any fun e => e.1 == loc then s else (s.checkMeta loc ⟨s.fr.clk, none⟩).1
  s.onArr fun a => { a.cleanCw .mword (loc / 2) with
    mword := sset 0 a.mword loc w, lost := a.lost.filter fun e => e.1 != loc }

/-- The metadata word of a stored line was lost: it is rewritten with all POISON bits, and with POISON alone in the header of a
context (R73); the count of armed contexts follows unless a contribution in flight writes the header (R212, R221). -/
def Sw.fixWord (s : Sw) (loc : Nat) : Sw :=
  let said := s.arr.lost.any fun e => e.1 == loc && e.2
  let s := match s.headAt loc with
    | none => s.putWord loc (Line.word ⟨0, 255, 0⟩)
    | some r =>
      let s := if said then s else s.raise 14 (s.map.addr (tTag (s.tag loc) * 65536 + loc / 16)).toNat
      let s := if s.writing loc then s else s.armedBy r (hCount (s.arr.stored loc).hdr != 0) false
      s.putWord loc (Line.word ⟨0, 255, hdrLost⟩)
  s.cwWritten .mword (loc / 2)

/-- The stored data codewords `cws` of a line were uncorrectable: their POISON bits are set and they are rewritten as zero
(R383). -/
def Sw.fixData (s : Sw) (loc : Nat) (cws : BitVec 8) : Sw :=
  let ln := s.arr.stored loc
  let s := s.putWord loc { ln with poison := ln.poison ||| cws }.word
  (List.range 8).foldl (fun s k =>
    if bitAt cws k then (s.onArr fun a => a.setCw .data (loc * 8 + k) 0).cwWritten .data (loc * 8 + k) else s) s

/-- Handle a stored line with an uncorrectable codeword, or whose metadata word was lost when `mword` (R73, R383): a clean KIND 0
line is invalidated, any other line keeps its place with poison, and a location that holds no line is left. -/
def Sw.fixLine (s : Sw) (loc : Nat) (cws : BitVec 8) (mword : Bool) : Sw :=
  let w := s.tag loc
  if !tValid w then s.onArr fun a => { a with lost := a.lost.filter fun e => e.1 != loc }
  else if tKind w == 0 && !tDirty w then
    ((s.setTag loc (clearedTag w)).onPipe fun p => { p with
      undo := p.undo.map fun e => if e.1 == loc then (loc, clearedTag e.2) else e }).onArr
      fun a => { a with lost := a.lost.filter fun e => e.1 != loc }
  else if mword then s.fixWord loc
  else s.fixData loc cws

/-- The fault log takes a hard fault (R391). -/
def Sw.logFault (s : Sw) (p : Place) (g : Nat) : Sw :=
  let s := s.count 3 4 1 none
  let same (e : Place × Nat) : Bool := e.1.tier == p.tier && e.1.bank == p.bank && e.1.sub == p.sub
  let log := s.rep.log
  if log.any fun e => same e && e.1.kind == 1 && e.1.index == g then s
  else if log.any fun e => same e && e.1.kind == 0 && e.1.index == p.index then s
  else if log.any fun e => same e && e.1.kind == 0 && e.2 == g then
    s.onRep fun r => { r with
      log := updFirst (fun e => same e && e.1.kind == 0 && e.2 == g) (fun e => ({ e.1 with kind := 1, index := g }, g)) r.log }
  else if log.length ≥ 16 then s.count 3 5 1 none
  else s.onRep fun r => { r with log := r.log ++ [(p, g)] }

/-- The verify read of a codeword (R382, R390): an error it finds is a hard fault, handled as any error found. -/
def Sw.verifyCw (s : Sw) (st : Store) (cw : Nat) : Sw :=
  let syms := s.arr.symbols st cw
  if syms.isEmpty then s
  else
    let s := match faultPlace st cw (syms.foldl min 35) with
      | some (p, g) => s.logFault p g
      | none => s.count 3 4 1 none
    match st with
    | .data =>
      let (s, bad) := s.checkData (cw / 8) (cw % 8) ⟨s.fr.clk, none⟩
      if bad then s.bgFrom (pairOf (cw / 8)) s.fr.clk true (.fix (cw / 8) (1#8 <<< (cw % 8)) false) (some (cw / 8)) none else s
    | .mword => (s.checkMeta (2 * cw) ⟨s.fr.clk, none⟩).1
    | .tag => s.checkTag cw
    | .dir => s.checkDirCode cw

end Sys2Proof.Machine
end

