-- ==== Sys2Proof/Machine/Home.lean ====
section
/-! DEFINITION. The coherence home (07, 08): directory forms, checks at RES, tickets and the retry tracker, transactions,
snoop answers, directory evictions and the closing of transactions. -/
namespace Sys2Proof.Machine

/-! ## Directory forms (R167 to R169) -/

/-- Insert into an ascending list. -/
def insNat (n : Nat) : List Nat → List Nat
  | [] => [n]
  | m :: l => if n ≤ m then n :: m :: l else m :: insNat n l

/-- Ascending order. -/
def sortNat (l : List Nat) : List Nat := l.foldr insNat []

/-- The entry records an owner. -/
def dOwned (e : BitVec 128) : Bool := dBase e == 2 || dBase e == 3

/-- Agents that the entry may record as sharers, in ascending order (R168). -/
def dSharers (agents : Nat) (e : BitVec 128) : List Nat :=
  if dBase e == 1 || dBase e == 3 then
    if dOvf e then (List.range agents).filter fun a => bitAt (dGroups e) (a / 32) else sortNat (dPtrs e)
  else []

/-- The agent is recorded as a sharer, or covered by GROUPS (R168). -/
def dCovers (e : BitVec 128) (a : Nat) : Bool :=
  (dBase e == 1 || dBase e == 3) && a < 1024 && if dOvf e then bitAt (dGroups e) (a / 32) else (dPtrs e).contains a

/-- Remove the owner (R177, R182): EM becomes I, O becomes S or SB with the sharers, or I if none. -/
def dDropOwner (e : BitVec 128) : BitVec 128 :=
  if dBase e == 3 then
    if dOvf e then dirVec (dTag e) 1 0 (dGroups e)
    else match dPtrs e with
      | [] => dirPtr (dTag e) 0 0 []
      | ps => dirPtr (dTag e) 1 0 ps
  else if dBase e == 2 then dirPtr (dTag e) 0 0 []
  else e

/-- Clear the pointer of an agent (R177, R182); vector form stays as it is. -/
def dDropSharer (e : BitVec 128) (a : Nat) : BitVec 128 :=
  if dOvf e || !(dPtrs e).contains a then e
  else
    let ps := (dPtrs e).filter (· != a)
    if dBase e == 3 then dirPtr (dTag e) 3 (dOwner e) ps
    else match ps with
      | [] => dirPtr (dTag e) 0 0 []
      | _ => dirPtr (dTag e) 1 0 ps

/-- Add a sharer (R169). -/
def dAddSharer (e : BitVec 128) (a : Nat) : BitVec 128 :=
  let st := if dBase e == 3 then 3 else 1
  let own := if dBase e == 3 then dOwner e else 0
  if dOvf e then dirVec (dTag e) st own (dGroups e ||| (1#32 <<< (a / 32)))
  else
    let ps := dPtrs e
    if ps.contains a then e
    else if ps.length < 4 then dirPtr (dTag e) st own (ps ++ [a])
    else dirVec (dTag e) st own ((ps ++ [a]).foldl (fun g b => g ||| (1#32 <<< (b / 32))) 0)

/-- Owner alone in EM (R167). -/
def dEM (e : BitVec 128) (a : Nat) : BitVec 128 := dirPtr (dTag e) 2 a []

/-- Every recorded holder, the owner first, then ascending, without the requester and without repeats (R174 to R176). -/
def dHolders (agents : Nat) (e : BitVec 128) (skip : Option Nat) : List Nat :=
  let own := if dOwned e then [dOwner e] else []
  (own ++ (dSharers agents e).filter fun a => !own.contains a).filter fun a => skip != some a

/-- Snoops that the eviction of an entry sends (R194). -/
def dCost (agents : Nat) (e : BitVec 128) : Nat :=
  match dBase e with
  | 1 => if dOvf e then (dSharers agents e).length else (dPtrs e).length
  | 2 => 1
  | 3 => 1 + if dOvf e then (dSharers agents e).length else (dPtrs e).length
  | _ => 0

/-! ## Granted state and next form (R182, R183) -/

/-- An Upgrade that is answered with COMP: from a recorded sharer, or from the owner in O form (R182). -/
def Txn.upgradeComp (t : Txn) : Bool :=
  let r := t.r.src.toNat
  let e := t.base
  if dOwned e && dOwner e == r then dBase e == 3 else dCovers e r

/-- The state granted and the next form, from the form at RES and the owner's answer (R182, R183). ReadUnique from the recorded owner
itself takes E from the home's copy (log 109). -/
def Txn.resolve (t : Txn) : BitVec 3 × BitVec 128 :=
  let e := t.base
  let r := t.r.src.toNat
  let shared (e : BitVec 128) : BitVec 3 × BitVec 128 :=
    if dBase e == 0 then (2, dEM e r) else (1, dAddSharer e r)
  match t.kind with
  | .req =>
    match kindOf t.r.op with
    | some .readShared =>
      match t.ownerAns with
      | some (st, _) =>
        if st == 1 then (1, dAddSharer (dAddSharer (dDropOwner e) (dOwner e)) r)
        else if st == 4 then (1, dAddSharer (if dBase e == 3 then e else dirPtr (dTag e) 3 (dOwner e) []) r)
        else shared (dDropOwner e)
      | none => shared e
    | some .readOnce =>
      match t.ownerAns with
      | some (st, _) =>
        if st == 1 then (0, dAddSharer (dDropOwner e) (dOwner e))
        else if st == 4 then (0, if dBase e == 3 then e else dirPtr (dTag e) 3 (dOwner e) [])
        else (0, dDropOwner e)
      | none => (0, e)
    | some .readUnique => (if t.fwdData.isSome then 3 else 2, dEM e r)
    | some .upgrade =>
      if t.upgradeComp then (if dBase e == 3 then 3 else 2, dEM e r)
      else (if t.fwdData.isSome then 3 else 2, dEM e r)
    | some .writeBack => (0, dDropOwner e)
    | some .evictClean =>
      (0, if dBase e == 2 && dOwner e == r then dDropOwner e else dDropSharer e r)
    | _ => (0, dirPtr (dTag e) 0 0 [])
  | _ => (0, dirPtr (dTag e) 0 0 [])

/-! ## Tickets and the retry tracker (R190 to R193) -/

/-- The request of a tracker entry or ticket. -/
def Track.is (k : Track) (src txn : BitVec 12) (line : Nat) : Bool := k.src == src && k.txn == txn && k.line == line
def Ticket.is (k : Ticket) (src txn : BitVec 12) (line : Nat) : Bool := k.src == src && k.txn == txn && k.line == line

/-- The head ticket belongs to another request than this one. -/
def Sw.otherHead (s : Sw) (r : Req) (line : Nat) : Option Ticket :=
  match s.home.tickets with
  | k :: _ => if k.is r.src r.txn line then none else some k
  | [] => none

/-- Remove the first ticket that satisfies `f`; a new head starts its four frames (R193). -/
def Sw.dropTicket (s : Sw) (f : Ticket → Bool) : Sw :=
  s.onHome fun h =>
    let l := dropFirst f h.tickets
    { h with tickets := l, headFrame := if l.head? == h.tickets.head? then h.headFrame else s.fr.frameNo }

/-- A refusal under R187 enters the retry tracker, and may issue a ticket (R190, R191). -/
def Sw.track (s : Sw) (r : Req) (line : Nat) (status : BitVec 8) : Sw :=
  let f := s.fr.frameNo
  let ticket (s : Sw) : Sw :=
    if s.home.tickets.length < 16 && !(s.home.tickets.any fun k => k.is r.src r.txn line) then
      s.onHome fun h => { h with
        tickets := h.tickets ++ [⟨r.src, r.txn, line, status⟩]
        headFrame := if h.tickets.isEmpty then f else h.headFrame }
    else s
  match s.home.tracker.find? fun k => k.is r.src r.txn line with
  | some k =>
    let n := min 4 (k.count + 1)
    let s := s.onHome fun h => { h with
      tracker := updFirst (fun k => k.is r.src r.txn line) (fun k => { k with count := n, status := status, lastFrame := f }) h.tracker }
    if n == 4 then ticket s else s
  | none =>
    match firstBelow 128 fun i => !(s.home.tracker.any fun k => k.slot == i) with
    | some i => s.onHome fun h => { h with tracker := h.tracker ++ [⟨i, r.src, r.txn, line, status, 1, f⟩] }
    | none => s.count 2 6 1 (some r.who)

/-- A request passes RES: its tracker entry and its ticket go (R190, R193). -/
def Sw.untrack (s : Sw) (r : Req) (line : Nat) : Sw :=
  let s := s.onHome fun h => { h with tracker := dropFirst (fun k => k.is r.src r.txn line) h.tracker }
  s.dropTicket fun k => k.is r.src r.txn line

/-! ## Transactions -/

/-- Update one transaction. -/
def Sw.onTxn (s : Sw) (idx : Nat) (f : Txn → Txn) : Sw :=
  s.onHome fun h => { h with txns := updFirst (fun t => t.idx == idx) f h.txns }

/-- One transaction. -/
def Sw.txn (s : Sw) (idx : Nat) : Option Txn := s.home.txns.find? fun t => t.idx == idx

/-- Store a transaction, if it has a table entry. -/
def Sw.putTxn (s : Sw) (t : Txn) : Sw := s.onTxn t.idx fun _ => t

/-- The snoops of a transaction are all answered. -/
def Txn.quiet (t : Txn) : Bool := t.toSnoop.isEmpty && t.await.isEmpty

/-- A transaction needs the home's data if no agent sends it (R182). -/
def Txn.wantsHome (t : Txn) : Bool :=
  t.kind == .req && t.fwdData.isNone && match kindOf t.r.op with
    | some .readUnique => true
    | some .upgrade => !t.upgradeComp
    | some .writePart => true
    | some (.atomic _ _) => !t.aborted
    | _ => false

/-- The decisions on the cache that RES makes for a request with snoops outstanding (R112, R118 to R120, R129): ages and
PREFETCHED of a hit, the way of a line that needs no memory read, a side-buffer line that moves, and the memory read of a
miss whose entry records no owner (R179). -/
def Sw.resCache (s : Sw) (t : Txn) : Sw × Txn :=
  let unowned := !dOwned t.base
  let t := { t with resd := true }
  match kindOf t.r.op with
  | some .writeInv =>
    match s.lookup t.line with
    | .tag loc => (s.touch loc false, { t with way := some loc })
    | .side _ => let (s, t) := (s.freeSide t.line).allocate t true; (s, { t with got := some Line.zero })
    | _ => let (s, t) := s.allocate t true; (s, { t with got := some Line.zero })
  | some .cleanInv => (s, t)
  | some .evictClean => (s, t)
  | some .writeBack => (s, t)
  | some .upgrade =>
    if s.lookup t.line == .miss && unowned && !t.upgradeComp then s.decideRead t false false
    else (s, t)
  | some k =>
    match s.lookup t.line with
    | .tag loc => (s.touch loc false, if k.isRead then t else { t with way := some loc })
    | .ev ln => if k.isRead then (s, t) else
        let (s, t) := s.allocate t true
        (s, { t with got := some ln })
    | .side ln =>
      if k.isRead then
        let (s, t) := s.moveSide t ln
        (s, if t.way.isNone then { t with got := some ln } else t)
      else
        let (s, t) := (s.freeSide t.line).allocate t true
        (s, { t with got := some ln })
    | _ => if unowned then s.decideRead t true (!k.isRead) else (s, t)
  | none => (s, t)

/-- The memory read of a transaction with snoops still outstanding, decided at the answer of an owner that sent no data; the way of
the fill is chosen with it (R120, R179). Where the requester itself is the recorded owner no owner answers, and the read is
decided once every snoop is answered (log 92). -/
def Sw.readEarly (s : Sw) (t : Txn) : Sw × Txn :=
  if t.wantsHome && !t.reading && t.got.isNone && !t.drop && !t.quiet && t.ownerAns.any (fun a => !a.2) then
    let s := s.checkTags (setOf t.line)
    if s.lookup t.line == .miss then
      let up := kindOf t.r.op == some .upgrade
      s.decideRead t (!up) (!up && kindOf t.r.op != some .readUnique)
    else (s, t)
  else (s, t)

/-- Write the next form of a transaction's entry (R170, R171, R181). -/
def Sw.writeNext (s : Sw) (t : Txn) : Sw :=
  match t.dirKey with
  | none => s
  | some k =>
    let next := (t.resolve).2
    let s := if dOvf next && !dOvf t.base then s.count 2 3 1 (some t.r.who) else s
    s.onArr fun a => a.putDir k (if dBase next == 0 then 0 else withOpen next false)

/-- Close a transaction (R181, R195, R143). -/
def Sw.closeTxn (s : Sw) (t : Txn) : Sw :=
  let s := (s.onHome fun h => { h with txns := h.txns.filter fun x => x.idx != t.idx }).onPipe fun q => { q with
    wr := q.wr.map fun w => if w.txn == some t.idx then { w with txn := some 256 } else w }
  match t.kind with
  | .req => s.writeNext t
  | .prefetch => s
  | .evict =>
    match s.home.txns.find? fun x => x.evict == some t.idx, t.dirKey with
    | some w, some k =>
      (s.onArr fun a => a.putDir k (BitVec.ofNat 128 (dirTag w.line ||| (4 <<< 28)))).onTxn w.idx fun x => { x with evict := none }
    | none, some k => s.onArr fun a => a.putDir k 0
    | _, none => s
  | .bind =>
    let s := match t.dirKey with
      | some k => s.onArr fun a => a.putDir k 0
      | none => s
    match t.fwdData with
    | some ln => s.onWalk fun w => w.map fun w => { w with img := sput w.img t.line ln }
    | none => s

/-- The request of the transaction is a read: it closes although the line it fills with has not been written (R181). -/
def Txn.reads (t : Txn) : Bool := t.kind == .req && match kindOf t.r.op with
  | some .readShared => true
  | some .readUnique => true
  | some .readOnce => true
  | _ => false

/-- Every condition of R181 holds: what a request or a prefetch writes has been written, and what an eviction was sent has been
written or has entered the eviction buffer. -/
def Sw.canClose (s : Sw) (t : Txn) : Bool :=
  t.ph == .done && t.evict.isNone && !t.reading && (t.reads || !(s.pipe.wr.any fun w => w.txn == some t.idx))
    && !(s.cache.evWait.any fun e => e.txn == some t.idx)

/-- Close every transaction that can close. -/
def Sw.closeDone (s : Sw) : Sw := (s.home.txns.filter s.canClose).foldl (fun s t => s.closeTxn t) s

/-- After the response has left or the data was forwarded: COMP_ACK, or the end (R164, R181). -/
def Txn.afterResponse (t : Txn) (now : Nat) : Txn :=
  if t.needAck && !t.acked then { t with ph := .ack, ackFrom := some now } else { t with ph := .done }

/-- Act once every snoop of a transaction has been answered (R178 to R183). -/
def Sw.advance (s : Sw) (p : Params) (t : Txn) : Sw :=
  match t.kind with
  | .prefetch => s
  | .evict => s.putTxn { t with ph := .done }
  | .bind => s.putTxn { t with ph := .done }
  | .req =>
    let (st, _) := t.resolve
    let fwd := kindOf t.r.op == some .readShared && t.ownerAns.any fun a => a.1 == 1 || a.1 == 4
    if fwd then s.putTxn (t.afterResponse s.fr.clk)
    else if kindOf t.r.op == some .upgrade && t.upgradeComp then
      (s.comp p t (t.last + 24) st).putTxn { t with ph := .resp }
    else
      match t.fwdData with
      | some ln =>
        let s := (s.compData p t ln (t.last + 40) st).putTxn { t with ph := .resp }
        match t.got, t.way with
        | some g, some loc => s.wrFill t loc g
        | _, _ => s
      | none =>
        let (s, t) := if t.reading && !t.drop && !t.aborted then (s, { t with ph := .mem })
          else s.perform p t st
        s.putTxn t

/-- A snoop answer is allowed for the snoop it answers (R162, R183, R199). -/
def Txn.allows (t : Txn) (state : BitVec 3) (data : Bool) : Bool :=
  if t.snpOp == 0x31 then
    if t.fwdOk then (if data then state == 0 else state == 0 || state == 1 || state == 4)
    else (if data then state == 0 || state == 4 else state == 0 || state == 1)
  else state == 0

/-- Data that a ReadUnique passes on: the recorded owner's goes before that of any other agent (R178, R182). -/
def Txn.takes (t : Txn) (src : BitVec 12) (ln : Line) : Txn :=
  if t.fwdData.isNone || (dOwned t.base && dOwner t.base == src.toNat) then { t with fwdData := some ln } else t

/-- SNP_RESP or SNP_DATA (R178, R180): none when it matches no awaited answer or is not allowed. What it leads to is decided
at the end of the clk (R120). -/
def Sw.snpAnswer (s : Sw) (idx : Nat) (src : BitVec 12) (state : BitVec 3) (data : Option Line) : Option Sw :=
  match s.txn idx with
  | none => none
  | some t =>
    if !(t.await.any fun a => a.1 == src.toNat) || !t.allows state data.isSome then none
    else
      let s := if data.isSome then s.count 2 1 1 (some t.r.who) else s
      some (s.putTxn { t with
        await := dropFirst (fun a => a.1 == src.toNat) t.await, last := s.fr.clk, born := s.fr.frameNo
        ownerAns := if dOwned t.base && dOwner t.base == src.toNat then some (state, data.isSome) else t.ownerAns
        answers := t.answers ++ [⟨src, state, data⟩] })

/-- The use of one snoop answer's data (R178). -/
def Sw.useAnswer (s : Sw) (p : Params) (t : Txn) (a : SnpAns) : Sw × Txn :=
  match a.data with
  | none => (s, t)
  | some ln =>
    match t.kind, kindOf t.r.op with
    | .bind, _ => (s, { t with fwdData := some ln })
    | .req, some .writeInv => (s, t)
    | .req, some .readUnique => (s, t.takes a.agent ln)
    | .req, some .upgrade => (s, if t.upgradeComp then t else t.takes a.agent ln)
    | .req, some .readOnce => if a.state == 4 then (s, { t with fwdData := some ln }) else s.snpWrite p t a.agent ln
    | _, _ => s.snpWrite p t a.agent ln

/-- The late decisions of one transaction for the answers of this clk (R120, R178, R179). -/
def Sw.lateDecision (s : Sw) (p : Params) (t : Txn) : Sw :=
  let (s, t) := t.answers.foldl (fun (x : Sw × Txn) a => x.1.useAnswer p x.2 a) (s, { t with answers := [] })
  let (s, t) := s.readEarly t
  let s := s.putTxn t
  if t.quiet then s.advance p t else s

/-- The late decisions of a clk follow in the acceptance order of the requests that caused them (R120). -/
def Sw.lateDecisions (s : Sw) (p : Params) : Nat → Sw
  | 0 => s.closeDone
  | n + 1 =>
    match minBy (fun (t : Txn) => t.seq * 512 + t.idx) (s.home.txns.filter fun t => !t.answers.isEmpty) with
    | none => s.closeDone
    | some t => (s.lateDecision p t).lateDecisions p n

/-- COMP_ACK (R164, R180): none when no transaction of that requester awaits it. -/
def Sw.compAck (s : Sw) (src txn : BitVec 12) : Option Sw :=
  match s.home.txns.find? fun t =>
      t.kind == .req && t.needAck && !t.acked && t.r.src == src && t.r.txn == txn
        && (t.ph == .ack || (t.fwdOk && t.toSnoop.isEmpty && t.ph == .snoop)) with
  | none => none
  | some t =>
    let t' := { t with acked := true, ph := if t.ph == .ack then .done else t.ph }
    some (s.putTxn t').closeDone

/-- CleanInvalidate after its memory writes (R112, R203). -/
def Sw.memWrDone (s : Sw) (p : Params) : Sw :=
  (s.home.txns.filter fun t => t.ph == .memWr && (s.evCopies t.line).isEmpty).foldl
    (fun s t => (s.comp p t (max s.fr.clk (t.last + 24)) 0).putTxn { t with ph := .resp }) s

/-! ## RES of a request to a KIND 0 line (R182, R187, R194) -/

/-- What a request needs at RES: table entries, a new directory entry, and whether it is a stale or no-effect notice. -/
structure Plan where
  txns : Nat
  newDir : Bool
  /-- Directory way to use: existing, free, or the way of the eviction. -/
  key : Option Nat
  evict : Option Nat
  snoop : List Nat
  snpOp : BitVec 8
  fwdOk : Bool
  base : BitVec 128
  deriving DecidableEq, Repr

/-- Free way of a directory set (R171). -/
def Sw.freeDir (s : Sw) (l : Nat) : Option Nat := (dirKeys l).find? fun k => !dUsed (s.dirAt k)

/-- Victim of a directory eviction (R194): a way that is not open, whose line has no open transaction (R164), and that no other
requester's ticket holds. -/
def Sw.dirVictim (s : Sw) (r : Req) (line : Nat) : Option Nat :=
  let held (k : Nat) : Bool := match s.otherHead r line with
    | some h => h.status == stLINE_BUSY && h.line == dirLine k (s.dirAt k)
    | none => false
  let open_ (k : Nat) : Bool := dOpen (s.dirAt k) || s.home.txns.any fun t => t.line == dirLine k (s.dirAt k)
  minBy (fun k => dCost s.life.agents (s.dirAt k)) ((dirKeys line).filter fun k => !open_ k && !held k)

/-- The snoops of a request given the form of the entry (R174, R182). -/
def snoopsOf (agents : Nat) (k : ReqKind) (e : BitVec 128) (r : Nat) : List Nat × BitVec 8 × Bool :=
  match k with
  | .readShared => (if dOwned e then [dOwner e] else [], 0x31, true)
  | .readOnce => (if dOwned e then [dOwner e] else [], 0x31, false)
  | .readUnique => (dHolders agents e (some r), 0x32, false)
  | .upgrade => (dHolders agents e (some r), 0x32, false)
  | .writeBack => ([], 0, false)
  | .evictClean => ([], 0, false)
  | _ => (dHolders agents e (some r), 0x33, false)

/-- What a request needs at RES (R171, R177, R182, R194, R200). -/
def Sw.plan (s : Sw) (r : Req) (k : ReqKind) (line : Nat) : Plan :=
  let key := s.findDir line
  let e := match key with
    | some i => withOpen (s.dirAt i) false
    | none => dirPtr (dirTag line) 0 0 []
  let rn := r.src.toNat
  let own := dOwned e && dOwner e == rn
  let e := match k with
    | .readShared => if own then dDropOwner e else e
    | .readOnce => if own then dDropOwner e else e
    | .writeInv => dDropSharer (if own then dDropOwner e else e) rn
    | .writePart => dDropSharer (if own then dDropOwner e else e) rn
    | .cleanInv => dDropSharer (if own then dDropOwner e else e) rn
    | .atomic _ _ => dDropSharer (if own then dDropOwner e else e) rn
    | _ => e
  let (sn, op, fwd) := snoopsOf s.life.agents k e rn
  let inTag := (s.findCached line).isSome
  let hit := inTag || (match s.lookup line with
    | .side _ => true
    | .ev _ => k.isRead
    | _ => false)
  let ends := k == .readShared || k == .readUnique || k == .upgrade
  let newDir := ends && key.isNone
  let stale := (k == .writeBack && !own) || (k == .evictClean && !(own && dBase e == 2) && dDropSharer e rn == e)
  let needs : Bool :=
    if stale then false
    else if key.isSome && !(k == .readOnce && sn.isEmpty && !own) then true
    else match k with
      | .readOnce => !hit
      | .writeInv => !hit
      | .writePart => !hit
      | .cleanInv => (match s.lookup line with
          | .tag loc => s.dirtyAt loc || !(s.evCopies line).isEmpty
          | .ev _ => true
          | _ => false)
      | .evictClean => false
      | .writeBack => false
      | _ => true
  let free := if newDir then s.freeDir line else none
  let victim := if newDir && free.isNone then s.dirVictim r line else none
  { txns := (if needs then 1 else 0) + (if newDir && free.isNone then 1 else 0), newDir := newDir
    key := if newDir then (match free with
      | some i => some i
      | none => victim) else (if needs then key else none)
    evict := victim, snoop := sn, snpOp := op, fwdOk := fwd && !sn.isEmpty, base := e }

/-- Checks 1 to 3 of R187: the status of the refusal, none when the request passes. -/
def Sw.check187 (s : Sw) (r : Req) (line : Nat) (pl : Plan) : Option (BitVec 8) :=
  let other := s.otherHead r line
  let lineHeld := other.any fun h => h.status == stLINE_BUSY && h.line == line
  let setHeld := other.any fun h => h.status == stDIR_SET_BUSY && h.line % 131072 == line % 131072
  let free := if other.isNone then 256 - s.home.txns.length else s.freeTxns
  if s.isOpen line || lineHeld || s.lookup line == .sideWait then some stLINE_BUSY
  else if pl.txns > 0 && free < pl.txns then some stTABLE_FULL
  else if pl.newDir && (setHeld || pl.key.isNone) then some stDIR_SET_BUSY
  else none

/-- Start the directory eviction of an entry (R195). -/
def Sw.startEvict (s : Sw) (p : Params) (kind : TxnKind) (key seq acc : Nat) (r : Req) : Sw × Nat :=
  let e := s.dirAt key
  let idx := s.freeIdx
  let t := { Txn.blank idx seq acc (dirLine key e) kind { r with src := p.sliceRid, txn := 0, op := 0 } (s.allocFor p p.sliceRid) s.fr.frameNo with
    dirKey := some key, base := withOpen e false, snpOp := 0x33, toSnoop := dHolders s.life.agents e none
    ph := if (dHolders s.life.agents e none).isEmpty then .done else .snoop }
  let s := (s.onHome fun h => { h with txns := h.txns ++ [t] }).onArr fun a => a.putDir key (withOpen e true)
  (s.count 2 2 1 (if kind == .evict then some r.who else none), idx)

/-- Read and write hits and misses at RES (R429 TAG). -/
def Sw.countTag (s : Sw) (r : Req) (k : ReqKind) (line : Nat) : Sw :=
  let w := some r.who
  let rd := k.isRead
  let wr := match k with
    | .writeInv => true
    | .writePart => true
    | .writeBack => true
    | .atomic _ _ => true
    | _ => false
  if !rd && !wr then s
  else match s.lookup line with
    | .tag _ => s.count 1 (if rd then 0 else 2) 1 w
    | .ev _ => (s.count 1 (if rd then 0 else 2) 1 w).count 1 4 1 w
    | .side _ => (s.count 1 (if rd then 0 else 2) 1 w).count 1 5 1 w
    | _ => s.count 1 (if rd then 1 else 3) 1 w

/-- A refusal under R187 at RES: the retry tracker, the counts, and RETRY 10 clk after acceptance (R84, R190). -/
def Sw.refuse187 (s : Sw) (p : Params) (q : ReqEnt) (k : ReqKind) (line acc : Nat) (st : BitVec 8) : Sw :=
  let r := q.r
  let s := s.track r line st
  let s := s.count 2 (if st == stLINE_BUSY then 4 else 5) 1 (some r.who)
  let s := if k.isAtomic then s.count 5 6 1 (some r.who) else s
  s.answer p (Ans.refusal r q.self acc) rRETRY st 0

/-- A miss by a request whose miss is a demand miss (R126, R127): any but CleanInvalidate, EvictClean and an Upgrade that needs
no data. One that hits only in the eviction buffer is no miss of R111 and trains nothing (log 93). -/
def Txn.demands (t : Txn) : Bool :=
  match kindOf t.r.op with
  | some .cleanInv => false
  | some .evictClean => false
  | some .upgrade => !t.upgradeComp
  | _ => true

/-- The transaction of a request takes its table entry, with the directory eviction that makes room for it and the transient
form of its directory entry (R170, R171, R194, R195). -/
def Sw.openTxn (s : Sw) (p : Params) (t : Txn) (pl : Plan) : Sw × Txn :=
  let t := { t with idx := s.freeIdx, dirKey := pl.key }
  let s := s.onHome fun h => { h with txns := h.txns ++ [t] }
  let s := s.onFlight t.seq fun f => { f with txn := some t.idx }
  match pl.evict, pl.key with
  | some key, _ =>
    let (s, j) := s.startEvict p .evict key t.seq t.acc t.r
    let t := { t with evict := some j }
    (s.putTxn t, t)
  | none, some key =>
    (s.onArr fun a => a.putDir key (if pl.newDir then BitVec.ofNat 128 (dirTag t.line ||| (4 <<< 28)) else withOpen (s.dirAt key) true), t)
  | none, none => (s, t)

/-- A request that passed RES acts on the home's copy: at once when it sends no snoop, and otherwise by its decisions at RES. The
Bool says whether the access proceeded as a NO_ALLOC one (R118). -/
def Sw.resPerform (s : Sw) (p : Params) (t : Txn) : Sw × Bool :=
  if t.idx < 256 then
    let s := if t.quiet then s.advance p t else
      let (s, t) := s.resCache t
      s.putTxn t
    (s, (s.txn t.idx).any fun x => x.r.noAlloc)
  else
    let (s, t) := s.perform p t (t.resolve).1
    (s, t.r.noAlloc)

/-- RES of a request to a KIND 0 line: refused with RETRY, or performed, or given a transaction (R182, R187). The Bool is
`true` when it was refused. -/
def Sw.resHome (s : Sw) (p : Params) (q : ReqEnt) (k : ReqKind) (line seq acc : Nat) (al : Alloc) : Sw × Bool :=
  let r := q.r
  let pl := s.plan r k line
  match s.check187 r line pl with
  | some st => (s.refuse187 p q k line acc st, true)
  | none =>
    let s := (s.untrack r line).countTag r k line
    let t : Txn := { Txn.blank 256 seq acc line .req r al s.fr.frameNo with
      wdat := q.dat, self := q.self, df := q.df, base := pl.base }
    let own := dOwned pl.base && dOwner pl.base == r.src.toNat
    let noop := pl.txns == 0 && k == .evictClean
    let stale := (k == .writeBack && !own) || (noop && !dCovers pl.base r.src.toNat && !own)
    let s := if stale then s.count 2 7 1 (some r.who) else s
    if stale || noop then (s.comp p t (acc + 24) 0, false)
    else
      let hit := s.lookup line
      let side : Bool := match hit with
        | .side _ => true
        | _ => false
      let t := { t with
        toSnoop := pl.snoop, snpOp := pl.snpOp, fwdOk := pl.fwdOk, needAck := k == .readShared || k == .readUnique || k == .upgrade
        recalled := !pl.snoop.isEmpty, ph := .snoop }
      let (s, t) := if pl.txns == 0 then (s, t) else s.openTxn p t pl
      let (s, noAlloc) := s.resPerform p t
      (if (t.demands && hit == .miss || side) && !noAlloc then s.prefetch t (hit == .miss) else s, false)

end Sys2Proof.Machine
end

