-- ==== Sys2Proof/Machine/Own.lean ====
section
/-! DEFINITION. Requests and contributions that the slice sends itself (R272): entering its own queues, leaving on the KY
port, and what their answers do (R238, R249, R250, R258, R260, R281, R307). -/
namespace Sys2Proof.Machine

/-! ## Request-queue occupancy (R305, R307) -/

/-- Entries that a class holds. -/
def Sw.heldQ (s : Sw) (c : Nat) : Nat := (s.q.req.filter fun e => e.r.qos.toNat == c).length

/-- Free entries of the request queue (R81). -/
def Sw.freeQ (s : Sw) : Nat := 128 - s.q.req.length

/-- Owed entries of R305. -/
def Sw.owed (s : Sw) : Nat := sumNat (s.qos.cls.map fun e => e.2.qRsv - s.heldQ e.1)

/-- The slice's own request may enter the request queue (R307). -/
def Sw.ownMayEnter (s : Sw) (c : Nat) : Bool := s.freeQ > s.owed || (s.heldQ c < (s.cls c).qRsv && s.freeQ ≥ 1)

/-! ## Sending -/

/-- A request of the slice's own (R272): SRC = SLICE_RID and PRIV 3; SCOPE SYSTEM for an ADD (R280), open otherwise. -/
def ownReq (p : Params) (op : BitVec 8) (txn : Nat) (addr : BitVec 52) (size : BitVec 3) (cls : BitVec 6) (dom : BitVec 8) : Req :=
  ⟨op, BitVec.ofNat 12 txn, p.sliceRid, addr, size, cls, 0, if op == 0x80 then 2 else BitVec.ofNat 2 (Config.ownScope txn).val, 3, dom,
    false, false, false⟩

/-- The data flit of a request of the slice's own: same TXN, TGT 0x000 (R44). -/
def ownDat (p : Params) (r : Req) (data : LineBits) (poison : BitVec 8) : Dat :=
  ⟨r.txn, 0, p.sliceRid, poison, dataDop r, 0, data⟩

/-- Count flits sent on the KY port (R429 MESH). -/
def Sw.sent (s : Sw) (n : Nat) (w : Option Who) : Sw := s.count 9 4 n w

/-- Flits other than those on ky_io_out may leave: SLICE_START has completed and the outputs are not isolated (R64, R417). -/
def Sw.sends (s : Sw) : Bool := s.life.st.started && s.port.linkUp && s.port.isolate == .none

/-- Change the progress of a request of the slice's own. -/
def Sw.setSelf (s : Sw) (id : Nat) (st : SelfSt) : Sw :=
  s.onGth fun g => { g with self := updFirst (fun x => x.id == id) (fun x => { x with st := st }) g.self }

/-- A response with an exact offset takes ky_dat_out in this clk (R108). -/
def Sw.datDue (s : Sw) : Bool := s.pipe.rsp.any fun r => r.exact && r.due ≤ s.fr.clk && match r.body with
  | .dat _ => true
  | _ => false

/-- A contribution of the slice's own enters the slice's ingress, or leaves on ky_gth_out. -/
def Sw.dispatchGth (s : Sw) (p : Params) (q : SelfReq) (c : Gth) : Option Sw :=
  if s.isHome p c.laddr then
    let e : GthEnt := ⟨s.q.nextId, c, s.fr.clk, 0, s.fr.frameNo, false, false, some q.id⟩
    some ((s.onQ fun x => { x with gth := x.gth ++ [e], nextId := x.nextId + 1 }).setSelf q.id .waitAns)
  else if s.hasOut .gth && s.port.gthOut.isNone && s.sends then
    some (((((s.spendOut .gth).onPort fun o => { o with gthOut := some (gthFlit c) }).sent 1 (some c.who)).count 4 6 1 (some c.who)).setSelf q.id .waitAns)
  else none

/-- A request of the slice's own leaves on ky_req_out, its data flit in the same clk (R272). -/
def Sw.dispatchOut (s : Sw) (q : SelfReq) : Option Sw :=
  let okDat := q.dat.isNone || (s.hasOut .dat && s.port.datOut.isNone && !s.datDue)
  if s.hasOut .req && s.port.reqOut.isNone && okDat && s.sends then
    let s := (s.spendOut .req).onPort fun o => { o with reqOut := some (reqFlit q.r) }
    let s := match q.dat with
      | some d => (s.spendOut .dat).onPort fun o => { o with datOut := some (datFlit d) }
      | none => s
    some ((s.sent (if q.dat.isSome then 2 else 1) (some q.r.who)).setSelf q.id .waitAns)
  else none

/-- Send a request or contribution: on the port as credits allow and its output registers are free in this clk, or to a line of
this slice, where a request waits for its entry into the queue (R272, R307), one of a class at a time. none when it cannot
leave now. -/
def Sw.dispatch (s : Sw) (p : Params) (q : SelfReq) : Option Sw :=
  match q.g with
  | some c => s.dispatchGth p q c
  | none =>
    if !s.isHome p (laddrOf q.r.addr) then s.dispatchOut q
    else if s.gth.self.any fun x => x.st == .entering && x.r.qos == q.r.qos then none
    else some (s.setSelf q.id .entering)

/-- At the slot of a clk, after the flits that arrived in it: the first of the slice's own requests that may enter the request
queue does so, with this clk as its arrival clk (R272, R307). -/
def Sw.enterOwn (s : Sw) : Sw :=
  match s.gth.self.find? fun q => q.st == .entering && s.ownMayEnter q.r.qos.toNat with
  | none => s
  | some q =>
    let e : ReqEnt := ⟨s.q.nextId, q.r, q.dat, s.fr.clk, 0, s.fr.frameNo, some q.id⟩
    (s.onQ fun x => { x with req := x.req ++ [e], nextId := x.nextId + 1 }).setSelf q.id .waitAns

/-- Record a request of the slice's own that waits to leave. -/
def Sw.addSelf (s : Sw) (q : SelfReq) : Sw := s.onGth fun g => { g with self := g.self ++ [q] }

/-! ## Answers (R238, R249, R260, R281) -/

/-- Update one readout entry. -/
def Sw.onRo (s : Sw) (id : Nat) (f : RoEnt → RoEnt) : Sw :=
  s.onGth fun g => { g with ro := updFirst (fun e => e.id == id) f g.ro }

/-- Kinds of answer that the slice receives. -/
inductive OwnAns where
  | done
  | data (ln : Line)
  | retry
  | error (status : BitVec 8)
  deriving DecidableEq, Repr

/-- Readout entries free when every output has been issued and completed and no signal is owed (R236). -/
def Sw.freeReadouts (s : Sw) : Sw :=
  s.onGth fun g => { g with ro := g.ro.filter fun e => !(e.planned && e.issuedAll && e.open_ == 0 && !bitAt e.t.sync 14) }

/-- An answer reaches the request or contribution it belongs to. -/
def Sw.ownAnswer (s : Sw) (q : SelfReq) (a : OwnAns) : Sw :=
  match a, q.owner with
  | .retry, .spent => s.dropSelf q.id
  | .retry, _ => s.setSelf q.id (.resendAt (s.fr.clk + 32))
  | _, _ =>
    let s := s.dropSelf q.id
    match q.owner with
    | .spent => s
    | .readout id =>
      let s := match a with
        | .error _ => s.count 4 7 1 (some q.r.who)
        | _ => s
      (s.onRo id fun e => { e with open_ := e.open_ - 1 }).freeReadouts
    | .fwd id =>
      let s := match a, q.g with
        | .error st, some c => s.raise 15 (c.laddr.toNat ||| (st.toNat <<< 48))
        | _, _ => s
      (s.onRo id fun e => { e with open_ := e.open_ - 1 }).freeReadouts
    | .image line _ =>
      match a with
      | .error _ => s.onWalk fun w => w.map fun w => { w with failed := true }
      | .data ln => s.onWalk fun w => w.map fun w => { w with img := sput w.img line ln }
      | _ => s
    | .notify ord =>
      let obj := ((s.syn.nq.find? fun n => n.ord == ord).map (·.obj)).getD 0
      let s := s.onSyn fun y => { y with nq := y.nq.filter fun n => n.ord != ord }
      match a with
      | .error st => ((s.raise 16 (obj ||| (st.toNat <<< 16))).count 6 7 1 (some q.r.who)).count 4 7 1 (some q.r.who)
      | _ => s

/-- The request of the slice's own with a TXN that awaits its answer (R180). -/
def Sw.awaiting (s : Sw) (txn : Nat) : Option SelfReq := s.gth.self.find? fun q => q.id == txn && q.st == .waitAns

/-! ## Image accesses of the walks (R258) -/

/-- Image requests outstanding or waiting. -/
def Sw.imageOut (s : Sw) : Nat := (s.gth.self.filter fun q => match q.owner with
  | .image _ _ => true
  | _ => false).length

/-- Queue an image access: line number `n` of the image at `base`. -/
def Sw.imageReq (s : Sw) (p : Params) (base : BitVec 52) (cls : BitVec 6) (dom : BitVec 8) (n : Nat) (wr : Option Line) : Sw :=
  let id := s.freeSelf
  let addr := base + BitVec.ofNat 52 (128 * n)
  let r := ownReq p (if wr.isSome then 0x62 else 0x23) id addr 7 cls dom
  s.addSelf ⟨id, .image n wr.isNone, r, wr.map fun l => ownDat p r l.data l.poison, none, .toSend⟩

end Sys2Proof.Machine
end

