-- ==== Sys2Proof/Machine/Walks.lean ====
section
/-! DEFINITION. Background walks of mailbox commands (R100, R135, R143, R150, R131, R258, R394, R396): one unit of each,
when a unit is pending, and when the walk has ended. -/
namespace Sys2Proof.Machine

/-- Update the running walk. -/
def Sw.upWalk (s : Sw) (f : Walk → Walk) : Sw := s.onWalk fun w => w.map f

/-- The walk takes the line of a location to the eviction buffer and waits for its memory write (R132, R136, R150); its array read
is background work (R77). -/
def Sw.walkEvict (s : Sw) (loc : Nat) : Sw :=
  let ord := s.cache.nextOrd
  let seq := s.pipe.nextSeq
  ((s.onPipe fun p => { p with nextSeq := seq + 1 }).evictRead loc .walk seq 64 s.fr.clk 2).upWalk fun w =>
    { w with evs := w.evs ++ [ord], count := w.count + 1 }

/-- Write a line by a walk from clk `at_` on: through its bank pair at background rank (R77). -/
def Sw.walkWrite (s : Sw) (loc : Nat) (ln : Line) (at_ : Nat) : Sw :=
  let seq := s.pipe.nextSeq
  (s.onPipe fun p => { p with nextSeq := p.nextSeq + 1 }).writeLine ⟨seq, loc, ln, false, none, none, none⟩ at_ 2 0

/-- The line of a location as a background read of the walk delivers it. -/
def Sw.walkRead (s : Sw) (loc : Nat) : Sw × Line :=
  let (s, ln, _, _) := (s.bgAccess (pairOf loc) false .plain).readLine loc ⟨s.fr.clk, none⟩
  (s, ln)

/-- The visit is done; the walk moves on. -/
def Sw.walkNext (s : Sw) : Sw := s.upWalk fun w => { w with cur := w.cur + 1 }

/-- The location takes one further unit, in which its dirty line is read (R131, R135, R150). -/
def Sw.walkLater (s : Sw) (loc : Nat) : Sw :=
  s.upWalk fun w => if w.todo.contains loc then w else { w with todo := w.todo ++ [loc], extra := w.extra + 1 }

/-- The line of a location, by local index. -/
def Sw.lineOf (s : Sw) (loc : Nat) : Nat := tTag (s.tag loc) * 65536 + loc / 16

/-- A KIND 0 line with an open transaction, which a walk revisits (R131, R135, R396). -/
def Sw.lineOpen (s : Sw) (loc : Nat) : Bool := s.isOpen (s.lineOf loc) || s.heldLoc loc

/-- One withdrawn location (R135); `further` in the unit that a dirty line takes besides (R338). The Bool says whether the unit
made progress. The walk takes the withdrawn ways one after another in ascending order (log 94). -/
def Sw.partVisit (s : Sw) (loc : Nat) (further : Bool) : Sw × Bool :=
  let s := s.checkTags (loc / 16)
  let t := s.tag loc
  let done_ (s : Sw) : Sw := if further then s.upWalk fun w => { w with todo := w.todo.drop 1 } else s.walkNext
  if !tValid t || tKind t != 0 then (done_ s, true)
  else if s.lineOpen loc then (s, false)
  else if tDirty t && !further then ((s.walkLater loc).walkNext, true)
  else (done_ ((if tDirty t then s.walkEvict loc else s).setTag loc (clearedTag t)), true)

/-- The line of a bind is written (R143, step 3): data, DIRTY. Its side-buffer copy goes. -/
def Sw.bindWrite (s : Sw) (r : Nat) (reg : Region) (l : Nat) (ln : Line) (dirty : Bool) : Sw :=
  let loc := reg.loc l
  let s := (s.freeSide l).keepTag loc (s.tag loc)
  let s := s.setTag loc (tagWord (tagOf l) true (dirty && reg.typ == 0) 0 (tRetired (s.tag loc)) (reg.typ.toNat + 1) r false)
  s.walkWrite loc (if reg.typ == 0 then { ln with hdr := 0 } else Line.zero) s.fr.clk

/-- The newest copy of a backed line in this slice (R143, step 2), and whether it differs from memory; none when it must be read
from memory. -/
def Sw.bindCopy (s : Sw) (w : Walk) (l : Nat) : Sw × Option (Line × Bool) :=
  match w.img.find? fun e => e.1 == l with
  | some e => (s, some (e.2, true))
  | none =>
    match s.findCached l with
    | some loc =>
      let d := s.dirtyAt loc
      let (s, ln) := s.walkRead loc
      (s, some (ln, d))
    | none => (s, (s.evLine l).map fun ln => (ln, true))

/-- One line of a bind (R143, R198). -/
def Sw.bindVisit (s : Sw) (p : Params) (r : Nat) (reg : Region) (w : Walk) : Sw × Bool :=
  let l := reg.l0 + w.cur
  let s := (s.checkTags (setOf l)).checkDir l
  let t := s.tag (reg.loc l)
  if tValid t && tKind t != 0 && tRegion t == r && tTag t == tagOf l then (s.walkNext, true)
  else if s.isOpen l then (s, false)
  else
    match s.findDir l with
    | some k =>
      if dOpen (s.dirAt k) || s.freeTxns == 0 then (s, false)
      else
        let seq := s.pipe.nextSeq
        let s := s.onPipe fun q => { q with nextSeq := q.nextSeq + 1 }
        ((s.startEvict p .bind k seq s.fr.clk (ownReq p 0 0 0 0 0 reg.owner)).1, true)
    | none =>
      let s := s.freeSide l
      if reg.typ != 0 then ((s.bindWrite r reg l Line.zero false).walkNext, true)
      else
        match s.bindCopy w l with
        | (s, some (ln, d)) => ((s.bindWrite r reg l ln d).walkNext, true)
        | (s, none) =>
          let rd : MpRead := ⟨.bind l, l, 64, none, s.pipe.nextSeq, 1, p.sliceRid, 3⟩
          (((s.onMp fun m => { m with wait := m.wait ++ [rd] }).onPipe fun q => { q with nextSeq := q.nextSeq + 1 }).walkNext, true)

/-- One line of an unbind (R150, R397); `further` in the unit that a dirty line takes besides. A line with a write still to
commit waits. -/
def Sw.unbindVisit (s : Sw) (loc : Nat) (further : Bool) : Sw × Bool :=
  let t := s.tag loc
  let done_ (s : Sw) : Sw := if further then s.upWalk fun w => { w with todo := w.todo.drop 1 } else s.walkNext
  if s.writing loc then (s, true)
  else
    let write := tKind t == 1 && tDirty t && !tRetired t
    if write && !further then ((s.walkLater loc).walkNext, true)
    else (done_ ((if write then s.walkEvict loc else s).setTag loc (clearedTag t)), true)

/-- The line lies in the range of a FLUSH (R130). -/
def Sw.flushHas (s : Sw) (whole : Bool) (base lines l : Nat) : Bool :=
  whole || (let a := (s.map.addr l).toNat; base ≤ a && a < base + lines)

/-- A set can hold a line of the range (R131). -/
def Sw.flushSet (s : Sw) (whole : Bool) (base lines set : Nat) : Bool :=
  whole || (
    let lo := (base >>> 10) * s.map.k
    let hi := ((base + lines - 1) >>> 10) * s.map.k + s.map.k
    let first := lo + (set + 65536 - lo % 65536) % 65536
    (List.range 4).any fun j => let l := first + j * 65536; l < hi && s.flushHas whole base lines l)

/-- The first set from `from_` on that can hold a line of the range; 65,536 when there is none. -/
def Sw.flushFrom (s : Sw) (whole : Bool) (base lines from_ : Nat) : Nat :=
  match (List.range (65536 - from_)).find? fun i => s.flushSet whole base lines (from_ + i) with
  | some i => from_ + i
  | none => 65536

/-- The effect of a FLUSH on the line of a location (R130): code 0 keeps it, a dirty line goes to memory unless the code is 1. -/
def Sw.flushLine (s : Sw) (op loc : Nat) : Sw :=
  let t := s.tag loc
  let s := if tDirty t && op != 1 then s.walkEvict loc else s
  s.setTag loc (if op == 0 then withDirty t false else clearedTag t)

/-- One location of a set that a FLUSH visits: a dirty line to be written takes one further unit, an open one is skipped. The Bools
say that it was skipped, and that something was done. -/
def Sw.flushLoc (s : Sw) (op : Nat) (whole : Bool) (base lines loc : Nat) : Sw × Bool × Bool :=
  let t := s.tag loc
  if !tValid t || tKind t != 0 || !s.flushHas whole base lines (s.lineOf loc) then (s, false, false)
  else if s.lineOpen loc then (s, true, false)
  else if tDirty t && op != 1 then
    (s.walkLater loc, false, !(s.walk.any fun w => w.todo.contains loc))
  else if op == 0 then (s, false, false)
  else (s.flushLine op loc, false, true)

/-- One set of a FLUSH (R131). A visit that skips an open line, a side-buffer line whose prefetch is open included, is made again in
the next unit. -/
def Sw.flushVisit (s : Sw) (op : Nat) (whole : Bool) (base lines set : Nat) : Sw × Bool :=
  let s := s.checkTags set
  let mine (e : Side) : Bool := setOf e.line == set && s.flushHas whole base lines e.line
  let waits := s.cache.side.any fun e => mine e && e.ln.isNone
  let s := s.onCache fun c => { c with side := c.side.filter fun e => !(e.ln.isSome && mine e) }
  let (s, skipped, did) := (List.range 16).foldl (fun (a : Sw × Bool × Bool) w =>
    let (s, b, d) := a.1.flushLoc op whole base lines (locOf set w)
    (s, a.2.1 || b, a.2.2 || d)) (s, waits, false)
  (s.upWalk fun w => { w with again := skipped, cur := if skipped then w.cur else s.flushFrom whole base lines (set + 1) },
    !skipped || did)

/-- The further unit of a FLUSH for a dirty line found by a visit: it is read and goes to memory, if it is still there and
dirty (R131). -/
def Sw.flushTake (s : Sw) (op : Nat) (whole : Bool) (base lines loc : Nat) : Sw × Bool :=
  let t := s.tag loc
  let pop (s : Sw) : Sw := s.upWalk fun w => { w with todo := w.todo.drop 1 }
  if !tValid t || tKind t != 0 || !s.flushHas whole base lines (s.lineOf loc) || (op == 0 && !tDirty t) then (pop s, true)
  else if s.lineOpen loc then (s, false)
  else (pop (s.flushLine op loc), true)

/-- The location of line `i` of the contexts from `first` on. -/
def Region.ctxLoc (reg : Region) (first c i : Nat) : Nat := reg.loc (reg.l0 + first * c + i)

/-- Write a context line and its metadata word as zero; the head updates the armed count (R258). A line whose location is RETIRED
is discarded without a write, the header of its context being zeroed (R263, R397). -/
def Sw.clearCtxLine (s : Sw) (r : Nat) (reg : Region) (first c i : Nat) : Sw :=
  let loc := reg.ctxLoc first c i
  let s := if i % c == 0 then s.armedBy r (hCount (s.peekLine loc).hdr != 0) false else s
  if !tRetired (s.tag loc) then s.walkWrite loc Line.zero s.fr.clk
  else if i % c == 0 then s.putWord loc 0
  else s

/-- Image line number of the metadata of line `i` of `m` contexts of `c` lines (R261). -/
def metaLine (m c i : Nat) : Nat := 1 + m * c + i / 16

/-- The descriptor of an image (R261). -/
def descriptor (p : Params) (t : Template) (w : Walk) (region first : Nat) (clear : Bool) : LineBits :=
  let f (d : LineBits) (b n v : Nat) := putBytes d b n v
  let s16 (v : Int) : Nat := (v % 65536).toNat
  let d := f 0 0 2 0x4753
  let d := f d 2 1 1
  let d := f d 3 1 w.c
  let d := f d 4 4 w.m
  let d := f d 8 4 first
  let d := f d 12 1 t.mode.toNat
  let d := f d 13 1 t.opt.toNat
  let d := f d 14 1 t.infmt.toNat
  let d := f d 15 1 t.elems.toNat
  let d := f d 16 2 (s16 t.anchor)
  let d := f d 18 2 (s16 t.sqanchor)
  let d := f d 20 4 t.expect
  let d := f d 24 1 p.sliceIndex.toNat
  let d := f d 25 1 region
  let d := f d 26 1 clear.toNat
  let d := f d 28 8 w.startGtime.toNat
  f d 36 4 w.count

/-- A descriptor that GATHER_RESTORE accepts for a template (R261). -/
def descriptorOk (t : Template) (ln : Line) : Bool :=
  let d := ln.data
  ln.poison == 0 && bytesN d 0 2 == 0x4753 && byteN d 2 == 1 && byteN d 3 == t.c && byteN d 12 == t.mode.toNat
    && byteN d 13 == t.opt.toNat && byteN d 14 == t.infmt.toNat && byteN d 15 == t.elems.toNat
    && bytesN d 16 2 == (t.anchor % 65536).toNat && bytesN d 18 2 == (t.sqanchor % 65536).toNat && bytesN d 20 4 == t.expect

/-- One line of GATHER_SAVE (R258, R261, R262). -/
def Sw.saveVisit (s : Sw) (p : Params) (first : Nat) (reg : Region) (image : BitVec 52) (cls : BitVec 6) (w : Walk) : Sw × Bool :=
  let i := w.cur
  let loc := reg.ctxLoc first w.c i
  let (s, ln) := s.walkRead loc
  let s := s.imageReq p image cls reg.owner (1 + i) (some ln)
  let ml := metaLine w.m w.c i
  let old := sget Line.zero w.img ml
  let md : Line := { old with data := putBytes old.data (8 * (i % 16)) 8 ln.word.toNat }
  let s := s.upWalk fun w => { w with
    cur := i + 1, img := sput w.img ml md, count := w.count + (if i % w.c == 0 && hCount ln.hdr != 0 then 1 else 0) }
  if i % 16 == 15 || i + 1 == w.m * w.c then
    ((s.imageReq p image cls reg.owner ml (some md)).upWalk fun w => { w with img := sdel w.img ml }, true)
  else (s, true)

/-- One line of GATHER_RESTORE (R258, R262). -/
def Sw.restoreVisit (s : Sw) (r first : Nat) (reg : Region) (w : Walk) : Sw × Bool :=
  let i := w.cur
  let loc := reg.ctxLoc first w.c i
  let headLoc := reg.ctxLoc first w.c (i - i % w.c)
  let raw := sget Line.zero w.img (1 + i)
  let md := sget Line.zero w.img (metaLine w.m w.c i)
  let word : BitVec 64 := BitVec.ofNat 64 (bytesN md.data (8 * (i % 16)) 8)
  let mdBad := bitAt md.poison ((i % 16) / 2)
  let isHead := i % w.c == 0
  let poison := if mdBad then raw.poison else fld word 0 8 ||| raw.poison
  let hdr : BitVec 56 := if isHead then (if mdBad then hdrLost else fld word 8 56) else 0
  let hdr := if isHead && poison != 0 then hdr ||| BitVec.ofNat 56 (1 <<< 35) else hdr
  let s := if isHead && mdBad then s.raise 14 (s.map.addr (reg.l0 + first * w.c + i)).toNat else s
  let armed := isHead && hCount hdr != 0
  let s := if isHead then s.armedBy r (hCount (s.peekLine loc).hdr != 0) armed else s
  let s := s.walkWrite loc ⟨raw.data, poison, hdr⟩ s.fr.clk
  let s := if !isHead && poison != 0 then
      let h := s.peekLine headLoc
      s.walkWrite headLoc { h with hdr := h.hdr ||| BitVec.ofNat 56 (1 <<< 35) } s.fr.clk
    else s
  (s.upWalk fun w => { w with
    cur := i + 1, count := w.count + armed.toNat
    img := if i % 16 == 15 then sdel (sdel w.img (1 + i)) (metaLine w.m w.c i) else sdel w.img (1 + i) }, true)

/-- Sets of a row or column group, by position in ascending order (R395). -/
def Place.set (p : Place) (i : Nat) : Nat :=
  let pair := p.tier * 8 + p.bank / 2
  let low := (p.sub % 2) * 32 + pair
  if p.kind == 0 then p.index * 128 + i * 64 + low else i * 64 + low

/-- Locations of a row or column group (R394, R395). -/
def Place.size (p : Place) : Nat := if p.kind == 0 then 2 else 1024

/-- The location number `i` of a place. -/
def Place.loc (p : Place) (i : Nat) : Nat := locOf (p.set i) (p.sub / 2)

/-- One line of a repair move (R394): it is read through the old mapping at c12 of its unit and written through the new one at c20.
A codeword found uncorrectable invalidates a clean KIND 0 line, and is otherwise written as zero with its POISON bit (R383). -/
def Sw.moveVisit (s : Sw) (pl : Place) (w : Walk) : Sw × Bool :=
  let loc := pl.loc w.cur
  let now := s.fr.clk
  let s := s.bgFrom (pairOf loc) (now + 12) false .plain (some loc) none
  let (s, ln, bad, lost) := s.readLine loc ⟨now + 18, none⟩
  let t := s.tag loc
  let s := if (bad != 0 || lost) && tValid t && tKind t == 0 && !tDirty t then s.setTag loc (clearedTag t) else s
  let s := (s.walkWrite loc ln (now + 20)).count 3 6 1 none
  (s.upWalk fun w => { w with cur := w.cur + 1, count := w.count + 1 }, true)

/-- The location becomes RETIRED (R396). -/
def Sw.retireLoc (s : Sw) (loc : Nat) : Sw :=
  let t := s.tag loc
  (s.setTag loc (if tValid t && tKind t != 0 then withRetired t true else withRetired 0 true)).count 3 7 1 none

/-- A dirty KIND 1 line goes to memory before its location becomes RETIRED (R396). -/
def Sw.retireFirst (s : Sw) (loc : Nat) : Bool :=
  let t := s.tag loc
  tValid t && tKind t == 1 && !tRetired t && s.dirtyAt loc

/-- Take a dirty KIND 1 line to the eviction buffer: DIRTY := 0, for the writes of it that are still to commit too. -/
def Sw.cleanPinned (s : Sw) (loc : Nat) : Sw :=
  (s.setTag loc (withDirty (s.tag loc) false)).onPipe fun q => { q with
    wr := updAll (fun w => w.loc == loc) (fun w => { w with dirty := false }) q.wr }

/-- One location of a retirement (R396). -/
def Sw.retireVisit (s : Sw) (pl : Place) (w : Walk) : Sw × Bool :=
  let loc := pl.loc w.cur
  let s := s.checkTags (loc / 16)
  let t := s.tag loc
  if tValid t && tKind t == 0 && s.lineOpen loc then (s, false)
  else if s.retireFirst loc then
    (((s.walkEvict loc).cleanPinned loc).upWalk fun w => { w with cur := w.cur + 1, todo := w.todo ++ [loc] }, true)
  else
    let s := if tValid t && tKind t == 0 && tDirty t then s.walkEvict loc else s
    ((s.retireLoc loc).walkNext, true)

/-- A location of a retirement whose dirty KIND 1 line has reached memory becomes RETIRED; one that was written meanwhile is sent
to memory again (R396). -/
def Sw.retireWritten (s : Sw) (loc : Nat) : Sw :=
  if !(s.evCopies (s.lineOf loc)).isEmpty then s
  else if s.retireFirst loc then (s.walkEvict loc).cleanPinned loc
  else (s.retireLoc loc).upWalk fun w => { w with todo := w.todo.filter fun x => x != loc }

/-! ## Which unit is pending -/

/-- A walk that stands still: held, stopped by a dead or fenced slice, or by a sweep (R206, R21, R412). -/
def Sw.walkStopped (s : Sw) (w : Walk) : Bool :=
  w.held || s.life.drain.isSome || s.life.st == .fenced || s.life.sweep.isSome

/-- The region of a number is bound, being bound or unbound. -/
def Sw.regOf (s : Sw) (r : Nat) : Region := (s.region r).getD ⟨0, 0, 0, 0, 0, 0, 0, .bound⟩

/-- A gather walk may start (R257). -/
def Sw.gatherQuiet (s : Sw) (r : Nat) : Bool := !s.contribInFlight r && !(s.gth.ro.any fun e => e.region == r)

/-- Locations found dirty wait for their further units. -/
def Walk.further (w : Walk) : Bool := !w.todo.isEmpty && match w.kind with
  | .retire _ => false
  | _ => true

/-- A unit of the running walk is pending. -/
def Sw.walkPending (s : Sw) : Bool :=
  match s.walk with
  | none => false
  | some w =>
    if s.walkStopped w then false
    else if w.further then true
    else match w.kind with
      | .part _ _ _ _ => s.cache.waySetNext.isNone && w.cur < w.total
      | .bind _ => w.cur < w.total
      | .unbind _ => w.cur < w.total
      | .flush _ _ _ _ => w.cur < 65536
      | .save r _ _ _ _ _ =>
        s.gatherQuiet r && ((w.pass == 0 && !w.failed && w.cur < w.m * w.c && s.imageOut < 64) || (w.pass == 2 && w.cur < w.m * w.c))
      | .restore r _ _ _ =>
        s.gatherQuiet r && ((w.pass == 1 && !w.failed && w.cur < w.m * w.c && w.img.any (fun e => e.1 == 1 + w.cur)
            && w.img.any fun e => e.1 == metaLine w.m w.c w.cur)
          || (w.pass == 2 && w.cur < w.m * w.c))
      | .drain r => s.gatherQuiet r && w.cur < w.total
      | .move _ _ => w.cur < w.total
      | .retire _ => w.cur < w.total

/-- A pending walk unit is a repair move (priority 3 of R100). -/
def Sw.walkIsMove (s : Sw) : Bool := match s.walk with
  | some w => match w.kind with
    | .move _ _ => true
    | _ => false
  | none => false

/-- The further unit for the dirty line of a location (R131, R135, R150). -/
def Sw.walkFurther (s : Sw) (w : Walk) (loc : Nat) : Sw × Bool :=
  match w.kind with
  | .part _ _ _ _ => s.partVisit loc true
  | .unbind _ => s.unbindVisit loc true
  | .flush op whole base lines => s.flushTake op whole base lines loc
  | _ => (s, true)

/-- The next visit of the running walk. -/
def Sw.walkVisit (s : Sw) (p : Params) (w : Walk) : Sw × Bool :=
  match w.kind with
  | .part ways _ _ _ => s.partVisit (locOf (w.cur % 65536) ((waysOf ways).getD (w.cur / 65536) 0)) false
  | .bind r => s.bindVisit p r (s.regOf r) w
  | .unbind r => s.unbindVisit ((s.regOf r).loc ((s.regOf r).l0 + w.cur)) false
  | .flush op whole base lines => s.flushVisit op whole base lines w.cur
  | .save r first _ image cls _ =>
    if w.pass == 0 then s.saveVisit p first (s.regOf r) image cls w
    else ((s.clearCtxLine r (s.regOf r) first w.c w.cur).walkNext, true)
  | .restore r first _ _ =>
    if w.pass == 1 then s.restoreVisit r first (s.regOf r) w
    else ((s.clearCtxLine r (s.regOf r) first w.c w.cur).walkNext, true)
  | .drain r =>
    let loc := (s.regOf r).ctxLoc 0 w.c w.cur
    let armed := w.cur % w.c == 0 && hCount (s.peekLine loc).hdr != 0
    ((s.clearCtxLine r (s.regOf r) 0 w.c w.cur).upWalk fun w => { w with cur := w.cur + 1, count := w.count + armed.toNat }, true)
  | .move pl _ => s.moveVisit pl w
  | .retire pl => s.retireVisit pl w

/-- What one unit of the running walk does. The Bool says whether it made progress (R433). -/
def Sw.walkStep (s : Sw) (p : Params) : Sw × Bool :=
  match s.walk with
  | none => (s, false)
  | some w =>
    let now := s.fr.bGtime
    let w := { w with units := w.units + 1, started := true, startGtime := (if w.started then w.startGtime else now) }
    let s := (s.count 10 4 1 none).onWalk fun _ => some w
    if w.further && !w.again then s.walkFurther w (w.todo.headD 0) else s.walkVisit p w

/-- One unit of the running walk; a unit that moves the walk no further is one beyond its fixed figure (R338). -/
def Sw.walkUnit (s : Sw) (p : Params) : Sw × Bool :=
  let (s', progress) := s.walkStep p
  (s'.onWalk fun x => match s.walk, x with
    | some w, some w' =>
      some (if w'.again || (w.todo.length == w'.todo.length && w.cur == w'.cur && w.pass == w'.pass)
        then { w' with extra := w'.extra + 1 } else w')
    | _, x => x, progress)

/-! ## Image accesses between units (R258 to R261) -/

/-- What a walk does between its units: the next pass, the descriptor and the next image reads of a save or restore, and the
locations of a retirement whose lines have reached memory. -/
def Sw.walkPump (s : Sw) (p : Params) : Sw :=
  match s.walk with
  | none => s
  | some w =>
    if s.walkStopped w then s
    else match w.kind with
      | .retire _ => w.todo.foldl (fun s loc => s.retireWritten loc) s
      | .save r first _ image cls clear =>
        if w.pass == 0 && !w.failed && w.cur == w.m * w.c && s.gatherQuiet r && s.imageOut == 0 then
          let t := s.template r
          match t with
          | some t =>
            (s.imageReq p image cls (s.regOf r).owner 0 (some ⟨descriptor p t w r first clear, 0, 0⟩)).upWalk fun w => { w with pass := 1 }
          | none => s
        else if w.pass == 1 && !w.failed && s.imageOut == 0 then
          s.upWalk fun w => { w with pass := if clear then 2 else 3, cur := if clear then 0 else w.cur }
        else s
      | .restore r first image cls =>
        if w.pass == 0 then
          if !s.gatherQuiet r then s
          else if !w.started then
            (s.imageReq p image cls (s.regOf r).owner 0 none).upWalk fun w => { w with started := true }
          else if s.imageOut != 0 || w.failed then s
          else
            match w.img.find? (fun e => e.1 == 0), s.template r with
            | some d, some t =>
              let m := bytesN d.2.data 4 4
              let reg := s.regOf r
              if !descriptorOk t d.2 || first + m > ctxCount reg t then
                s.upWalk fun w => { w with pass := 3, status := 2, img := [] }
              else if (List.range m).any fun j => hCount (s.peekLine (reg.ctxLoc (first + j) t.c 0)).hdr != 0 then s.upWalk fun w => { w with pass := 3, status := 1, img := [] }
              else s.upWalk fun w => { w with pass := 1, m := m, c := t.c, total := m * t.c, img := [], evs := [1] }
            | _, _ => s
        else if w.pass == 1 then
          if w.failed then
            if s.imageOut == 0 then s.upWalk fun w => { w with pass := 2, cur := 0, count := 0, img := [], total := w.total + w.m * w.c } else s
          else
            let n := w.evs.headD 1
            if n ≤ w.m * w.c && s.imageOut < 16 then
              let s := if (n - 1) % 16 == 0 then s.imageReq p image cls (s.regOf r).owner (metaLine w.m w.c (n - 1)) none else s
              (s.imageReq p image cls (s.regOf r).owner n none).upWalk fun w => { w with evs := [n + 1] }
            else s
        else s
      | _ => s

/-- Send the waiting image accesses that can leave in this clk, the oldest first; those of a walk that stands still wait (R412). -/
def Sw.pumpSelf (s : Sw) (p : Params) : Sw :=
  if s.walk.any s.walkStopped then s
  else (s.gth.self.filter fun q => q.st == .toSend).foldl (fun s q => (s.dispatch p q).getD s) s

/-- No line that the walk took to the eviction buffer is still there (R132, R136, R150). -/
def Sw.walkWritesDone (s : Sw) (w : Walk) : Bool :=
  !(s.cache.ev.any (fun e => w.evs.contains e.ord) || s.cache.evWait.any fun e => w.evs.contains e.ord)

/-- The walk's completion condition is met (R132, R136, R143, R150, R258, R260, R338, R396). -/
def Sw.walkEnded (s : Sw) (w : Walk) : Bool :=
  !s.walkStopped w && match w.kind with
  | .part _ _ _ _ => s.cache.waySetNext.isNone && w.cur ≥ w.total && w.todo.isEmpty && s.walkWritesDone w
  | .bind r =>
    w.cur ≥ w.total && !(s.mp.wait.any fun x => match x.cause with
        | .bind _ => true
        | _ => false)
      && !((s.mp.presented.toList.map (·.2) ++ s.mp.out.map (·.rd)).any fun x => match x.cause with
        | .bind _ => true
        | _ => false)
      && !(s.pipe.wr.any fun x => tKind (s.tag x.loc) != 0 && tRegion (s.tag x.loc) == r && x.flight.isNone)
  | .unbind _ => w.cur ≥ w.total && w.todo.isEmpty && s.walkWritesDone w
  | .flush _ _ _ _ => w.cur ≥ 65536 && w.todo.isEmpty && !w.again && s.walkWritesDone w
  | .save _ _ _ _ _ _ => (w.failed && s.imageOut == 0) || w.pass == 3 || (w.pass == 2 && w.cur ≥ w.m * w.c && s.pipe.wr.all fun x => x.flight.isSome)
  | .restore _ _ _ _ =>
    (w.pass == 0 && w.failed && s.imageOut == 0) || w.pass == 3
      || (w.pass == 1 && !w.failed && w.cur ≥ w.m * w.c && s.pipe.wr.all fun x => x.flight.isSome)
      || (w.pass == 2 && w.cur ≥ w.m * w.c && s.pipe.wr.all fun x => x.flight.isSome)
  | .drain _ => w.cur ≥ w.total && s.pipe.wr.all fun x => x.flight.isSome
  | .move _ _ => w.cur ≥ w.total && s.pipe.wr.all fun x => x.flight.isSome
  | .retire _ => w.cur ≥ w.total && w.todo.isEmpty

/-! ## A walk that is held (R21, R206, R412) -/

/-- The unit of the walk that wrote a location. -/
def Sw.unitOf (s : Sw) (w : Walk) (loc : Nat) : Option Nat :=
  let l := s.lineOf loc
  match w.kind with
  | .bind r => some (l - (s.regOf r).l0)
  | .save r first _ _ _ _ => some (l - (s.regOf r).l0 - first * w.c)
  | .restore r first _ _ => some (l - (s.regOf r).l0 - first * w.c)
  | .drain r => some (l - (s.regOf r).l0)
  | .move pl _ => (List.range pl.size).find? fun i => pl.loc i == loc
  | _ => none

/-- The units whose bind reads have not been answered. -/
def Sw.bindUnits (s : Sw) (r : Nat) : List Nat :=
  (s.mp.wait ++ s.mp.presented.toList.map (·.2) ++ s.mp.out.map (·.rd)).filterMap fun x => match x.cause with
    | .bind l => some (l - (s.regOf r).l0)
    | .txn _ => none

/-- The first unit of the walk that has not committed. -/
def Sw.firstOpen (s : Sw) (w : Walk) : Nat :=
  let wrote := (s.pipe.wr.filter fun x => x.flight.isNone).filterMap fun x => s.unitOf w x.loc
  let read := match w.kind with
    | .bind r => s.bindUnits r
    | _ => []
  (wrote ++ read).foldl min w.cur

/-- Contexts counted by the units from `cur` on, which these units will count again. -/
def Sw.countedFrom (s : Sw) (w : Walk) (cur : Nat) : Nat :=
  let heads (r first : Nat) (f : Nat → Bool) : Nat :=
    ((List.range (w.cur - cur)).filter fun i => (cur + i) % w.c == 0 && f ((s.regOf r).ctxLoc first w.c (cur + i))).length
  match w.kind with
  | .restore r first _ _ => if w.pass == 1 then heads r first fun loc => hCount (s.peekLine loc).hdr != 0 else 0
  | .drain r => heads r 0 fun loc => s.writing loc && hCount (s.arr.stored loc).hdr != 0
  | .move _ _ => w.cur - cur
  | _ => 0

/-- The running walk is held at its first unit that has not committed; a restore reads its image again from there (R21, R206,
R412). Called before uncommitted writes are cancelled. -/
def Sw.holdWalk (s : Sw) : Sw :=
  match s.walk with
  | none => s
  | some w =>
    let cur := s.firstOpen w
    let held := { w with held := true, cur := cur, count := w.count - s.countedFrom w cur, again := false }
    match w.kind with
    | .restore _ _ _ _ =>
      if w.pass != 1 then s.onWalk fun _ => some held
      else (s.onGth fun g => { g with self := g.self.filter fun q => match q.owner with
          | .image _ rd => !rd
          | _ => true }).onWalk fun _ => some { held with img := [], evs := [cur - cur % 16 + 1] }
    | _ => s.onWalk fun _ => some held

end Sys2Proof.Machine
end

