-- ==== Sys2Proof/Machine/Act.lean ====
section
/-! DEFINITION. How a command acts on the state: only while the switched region works, and then the declaration of a dead
domain when the command found a fatal cause (08, R205 to R208; 15, R357; 02, R58). -/
namespace Sys2Proof.Machine

/-! ## The drain of a dead domain (R206) -/

/-- REQ opcodes of the three reads. -/
def readOp (op : BitVec 8) : Bool := op == 0x21 || op == 0x22 || op == 0x23

/-- An IO answer of the aperture or of the sync window. -/
def Resp.windowed (r : Resp) (p : Params) : Bool := match r.body with
  | .io m => r.apt.isSome || inRange m.addr p.syncBase 131072
  | _ => false

/-- What a requester receives in place of an answer in a dead domain: an answer to an accepted request, and to an aperture or
sync-window access; refusals made before acceptance (rop 0) and IO answers from the register window stay (R206). -/
def Resp.dead (p : Params) (r : Resp) : Resp :=
  match r.body with
  | .io m => if r.windowed p then { r with body := .io { m with status := 4, payload := 0 } } else r
  | .self id _ _ _ => { r with body := .self id stDOMAIN_DEAD false none, waitEv := false }
  | .rsp m =>
    if r.rop == 0 then r
    else if readOp r.rop then
      { r with body := .dat ⟨m.txn, m.tgt, m.src, 255, 1, Config.deadState r.seq, 0⟩, waitEv := false }
    else { r with body := .rsp ⟨rERROR, m.txn, m.tgt, m.src, stDOMAIN_DEAD, 0⟩, waitEv := false }
  | .dat m =>
    if readOp r.rop then
      { r with body := .dat ⟨m.txn, m.tgt, m.src, 255, 1, Config.deadState r.seq, 0⟩, waitEv := false }
    else { r with body := .rsp ⟨rERROR, m.txn, m.tgt, m.src, stDOMAIN_DEAD, 0⟩, waitEv := false }

/-- An answer outside the exact offsets that belongs to no flight. -/
def plainAns (txn src : BitVec 12) (rop : BitVec 8) (self : Option Nat) (due : Nat) : Ans :=
  { txn := txn, src := src, rop := rop, self := self, due := due, flight := none, home := none, waitEv := false, exact := false }

/-- The answer of a dead domain to a request that has not been accepted (R206). -/
def Sw.answerDead (s : Sw) (p : Params) (r : Req) (self : Option Nat) (due : Nat) : Sw :=
  s.answer p (plainAns r.txn r.src r.op self due) rERROR stDOMAIN_DEAD 0

/-- The answer of a dead domain to a REQ or GTH flit that sits in the input register, or arrives (R206). -/
def Sw.turnDead (s : Sw) (p : Params) (txn src : BitVec 12) (l : Lane) : Sw :=
  s.answer p (Ans.turnedAway txn src s.fr.clk l) rERROR stDOMAIN_DEAD 0

/-- The normal offset of an accepted request's response (R84): 40 clk for one that receives data, 24 clk for any other. -/
def normalOffset (op : BitVec 8) : Nat :=
  match kindOf op with
  | some (.atomic _ true) => 40
  | _ => if readOp op then 40 else 24

/-- The answer of a dead domain to a request accepted at clk `acc` (R206): a read with poison, another request with ERROR, at the
normal offset where that still lies ahead. -/
def Sw.answerAccDead (s : Sw) (p : Params) (r : Req) (self : Option Nat) (acc : Nat) : Sw :=
  let a := plainAns r.txn r.src r.op self (max (s.fr.clk + 1) (acc + normalOffset r.op))
  if readOp r.op && self.isNone then s.answerData p a ⟨0, 255, 0⟩ (Config.deadState s.pipe.nextSeq)
  else s.answer p a rERROR stDOMAIN_DEAD 0

/-- The answer of a dead domain to one contribution (R206). -/
def Sw.answerGthDead (s : Sw) (p : Params) (g : Gth) (self : Option Nat) (due : Nat) : Sw :=
  s.answer p (plainAns g.txn g.src 1 self due) rERROR stDOMAIN_DEAD 0

/-- Clk from the acceptance of an aperture access to its answer (R84). -/
def aptOffset (f : Io) : Nat := if f.op == 0x01 then 44 else 24

/-- An accepted request that has not come to RES and is not a register-window or sync-window access. -/
def Staged.open_ (x : Staged) (p : Params) : Bool := x.out.isNone && match x.cand with
  | .io e => e.f.toApt p
  | _ => true

/-- An accepted request that has not come to RES is answered by a dead domain (R206). -/
def Sw.answerStagedDead (s : Sw) (p : Params) (x : Staged) : Sw :=
  match x.cand with
  | .req e => s.answerAccDead p e.r e.self x.acc
  | .gth e => s.answerGthDead p e.g e.fwd (max (s.fr.clk + 1) (x.acc + 28))
  | .io e => s.answerIo p e.f (max (s.fr.clk + 1) (x.acc + aptOffset e.f)) 4 0 (some (e.f.src, x.acc))

/-- An accepted request goes no further: its slot is WASTED (R433), and only its ACCEPT record is left to make (R436). -/
def Sw.endStaged (s : Sw) (x : Staged) : Sw :=
  (s.slotClass x.acc 1 (some x.cand.who)).onPipe fun q => { q with
    staged := updFirst (fun y => y.id == x.id) (fun y => { y with out := some .error }) q.staged }

/-- The armed-context counts as the headers give them: those stored, and those of the writes still to commit (R212). -/
def Sw.recountArmed (s : Sw) : Sw :=
  let locs := s.arr.mword.map (·.1)
    ++ ((s.pipe.wr.map fun w => w.loc).filter fun l => sget 0 s.arr.mword l == 0).eraseDups
  let heads := locs.filterMap fun loc =>
    let t := s.tag loc
    if tValid t && tKind t == 3 && hCount (s.peekLine loc).hdr != 0 then s.headsContext (tTag t * 65536 + loc / 16) else none
  s.onGth fun g => { g with armed := heads.foldl (fun m r => sset 0 m r (sget 0 m r + 1)) [] }

/-- A line on its way to the eviction buffer when writes are cancelled: it stands as its last commit left it, and its array read is no
longer awaited. -/
def Sw.lastCommitted (s : Sw) (e : EvWait) : EvWait :=
  let e := { e with read := false, taken := false, earliest := 0, txn := none }
  match e.loc with
  | some loc => if s.writing loc then { e with ln := { s.arr.stored loc with hdr := 0 } } else e
  | none => e

/-- No array write commits any more (R21, R206, R409): the tag entries of the cancelled writes are put back as their last commit left
them, and a NO_ALLOC write whose line has not entered the eviction buffer is lost (R112, R209). -/
def Sw.cancelWrites (s : Sw) : Sw :=
  let ev := (s.cache.evWait.filter fun e => e.why != .noAlloc).map s.lastCommitted
  let s := (s.pipe.undo.filter fun e => s.writing e.1 || s.heldLoc e.1).foldl (fun s e => s.setTag e.1 e.2) s
  ((s.onPipe fun q => { q with wr := [], acc := [], undo := [], uses := [], parity := [] }).onCache fun c =>
    { c with evWait := ev }).recountArmed

/-- Clk d + 1 of R206: nothing commits, snoops stop, queued requests and open transactions are answered, walks are held. -/
def Sw.startDrain (s : Sw) (p : Params) : Sw :=
  let now := s.fr.clk
  let s := s.onLife fun l => { l with drain := some now }
  let s := s.onPipe fun q => { q with rsp := q.rsp.map (Resp.dead p) }
  let s := (s.pipe.staged.filter fun x => x.open_ p).foldl (fun s x => (s.answerStagedDead p x).endStaged x) s
  let s := s.pipe.cleans.foldl (fun s c => s.answerAccDead p c.r c.self c.acc) s
  let s := s.pipe.syn.foldl (fun s a => s.answerIo p a.f (a.acc + 14) 4 0 none) s
  let s := s.holdWalk.cancelWrites.onPipe fun q => { q with syn := [], cleans := [] }
  let waiting := s.home.txns.filter fun t =>
    t.kind == .req && (t.ph == .snoop || t.ph == .mem || t.ph == .memWr)
  let s := waiting.foldl (fun s t => s.answerAccDead p t.r t.self t.acc) s
  let s := s.q.req.foldl (fun s e => s.answerDead p e.r e.self (now + 1)) s
  let s := s.q.reqReg.foldl (fun s e => s.turnDead p e.r.txn e.r.src .req) s
  let s := (s.q.gth ++ s.q.direct.toList).foldl (fun s e => s.answerGthDead p e.g e.fwd (now + 1)) s
  let s := s.onQ fun q => { q with req := [], reqReg := [], gth := [], direct := none, datWait := [], datDrop := [] }
  s.onHome fun h => { h with txns := h.txns.map fun t =>
    { t with toSnoop := [], answers := [], ph := if t.ph == .ack then .ack else .done } }

/-! ## Declaring the domain dead (R205 to R208, R357) -/

/-- The record HST_DOMAIN after a declaration (R357). -/
def DomRec.declare (d : DomRec) (code : BitVec 4) (detail : BitVec 17) (gtime : BitVec 64) : DomRec :=
  if d.dead then { d with again := true } else ⟨true, false, code, detail, gtime⟩

/-- The always-on side of a declaration: the record and both domain outputs (R58, R206). -/
def AlwaysOn.declare (a : AlwaysOn) (code : BitVec 4) (detail : BitVec 17) (gtime : BitVec 64) : AlwaysOn :=
  { a with dom := a.dom.declare code detail gtime, domFatalOut := true, rstReqOut := true }

/-- At the end of clk d: the fatal cause found in it declares the domain dead, and the drain begins with clk d + 1; a slice
that was fenced in the same clk only records it (R205 to R208). -/
def Sw.settle (s : Sw) (p : Params) (ao : AlwaysOn) : AlwaysOn × Sw :=
  match s.life.fatal with
  | none => (ao, s)
  | some (code, detail) =>
    let s := (s.onLife fun l => { l with fatal := none }).raise 1 ((code.toNat <<< 4) ||| (detail.toNat <<< 8))
    let ao := match s.life.domClr with
      | some d => { ao with dom := d }
      | none => ao
    (ao.declare code detail s.fr.gtime, if s.life.st == .fenced then s else s.startDrain p)

/-! ## Running a command -/

/-- The switched region works: no cold or warm reset holds it, and the slice is not in logic power-off. -/
def State.awake (s : State) : Bool := s.ao.hold.isNone && !s.ao.asleep

/-- A command acts on the switched region alone. -/
def State.run (s : State) (f : Params → AlwaysOn → Sw → Sw) : State :=
  if s.awake then { s with sw := f s.params s.ao s.sw } else s

/-- A command acts on the always-on region and the switched region. -/
def State.runAo (s : State) (f : Params → AlwaysOn → Sw → AlwaysOn × Sw) : State :=
  if s.awake then { s with ao := (f s.params s.ao s.sw).1, sw := (f s.params s.ao s.sw).2 } else s

/-- A command acts whether or not the switched region works; it finds no fatal cause. -/
def State.always (s : State) (f : Params → AlwaysOn → Sw → AlwaysOn × Sw) : State :=
  { s with ao := (f s.params s.ao s.sw).1, sw := (f s.params s.ao s.sw).2 }

end Sys2Proof.Machine
end

