-- ==== Sys2Proof/Machine/Regs.lean ====
section
/-! DEFINITION. The register window: which offsets are mapped, what each register reads, and the winner of each event bank
(15, R350 to R364; 13, R318; 14, R325; 16, R369 to R374; 18, R421, R422; 19, R435, R438). -/
namespace Sys2Proof.Machine

/-- Codes of R320. -/
def SliceSt.code : SliceSt → Nat
  | .boot => 0 | .safe => 1 | .config => 2 | .running => 3 | .quiescing => 4 | .quiesced => 5 | .fenced => 6

/-- Codes of R422. -/
def TierSt.code : TierSt → Nat
  | .off => 0 | .poweringUp => 1 | .filling => 2 | .on => 3 | .poweringDown => 4 | .pendingReenable => 5 | .pendingOff => 6

/-- Codes of MBX_STATUS.STATE (R325). -/
def ChSt.code : ChSt → Nat
  | .idle => 0 | .posted => 1 | .running => 2 | .done => 3

/-- One channel. -/
def Mbx.ch (m : Mbx) (n : BitVec 2) : Chan :=
  match n.toNat with
  | 0 => m.ch0 | 1 => m.ch1 | 2 => m.ch2 | _ => m.ch3

/-- Update one channel. -/
def Mbx.onCh (m : Mbx) (n : BitVec 2) (f : Chan → Chan) : Mbx :=
  match n.toNat with
  | 0 => { m with ch0 := f m.ch0 } | 1 => { m with ch1 := f m.ch1 } | 2 => { m with ch2 := f m.ch2 }
  | _ => { m with ch3 := f m.ch3 }

/-- Update one channel of the switched region. -/
def Sw.onCh (s : Sw) (n : BitVec 2) (f : Chan → Chan) : Sw := s.onMbx fun m => m.onCh n f

/-! ## Banks of the event unit (R369, R373) -/

/-- Number of a bank: 2t + b for LEHR and HOST0 to HOST3, 10 for the private bank. -/
def bankNum : Bank → Nat
  | .normal .lehr => 0 | .fast .lehr => 1
  | .normal .host0 => 2 | .fast .host0 => 3
  | .normal .host1 => 4 | .fast .host1 => 5
  | .normal .host2 => 6 | .fast .host2 => 7
  | .normal .host3 => 8 | .fast .host3 => 9
  | .priv => 10

/-- The host bank at offset 0x40t + 0x20b of the bank registers (R374). -/
def hostBank (t b : Nat) : Bank :=
  let x : Target := match t with
    | 0 => .host0 | 1 => .host1 | 2 => .host2 | _ => .host3
  if b = 0 then .normal x else .fast x

/-- The bank number that a source routes to: TARGET and BANK as they were at the start of the clk (R367, R374). -/
def EvtSrc.route (id : Nat) (e : EvtSrc) : Nat :=
  if evtPrivate id then 10 else 2 * fldN e.routed 0 3 + fldN e.routed 3 1

/-- A pending source is ready (R373). -/
def EvtSrc.ready (e : EvtSrc) : Bool :=
  max 1 (fldN e.cfg 8 8) ≤ e.occ.toNat || (fldN e.cfg 16 8 != 0 && fldN e.cfg 16 8 ≤ e.age.toNat)

/-- A source is eligible in a bank (R369). Private sources are never masked. -/
def EvtSrc.eligible (id bank : Nat) (e : EvtSrc) : Bool :=
  e.route id == bank && e.pend && (!e.mask || evtPrivate id) && !e.active && !e.freed && e.ready

/-- The winner of a bank: highest PRIO, then lowest ID (R369). -/
def Evt.winner (v : Evt) (bank : Nat) : Option Nat :=
  (minBy (fun (e : Nat × EvtSrc) => 15 - fldN e.2.cfg 4 4) (v.src.filter fun e => e.2.eligible e.1 bank)).map (·.1)

/-- At the end of a clk: which source wins each bank, and since when (R370). -/
def Evt.track (v : Evt) (clk : Nat) : Evt :=
  { v with
    cand := (List.range 11).filterMap fun n =>
      (v.winner n).map fun i => (n, match v.cand.find? fun e => e.1 == n && e.2.1 == i with
        | some e => e.2
        | none => (i, clk)) }

/-- The winner of a bank has been eligible for 4 clk (R370). -/
def Evt.ripe (v : Evt) (n clk : Nat) : Bool :=
  v.cand.any fun e => e.1 == n && v.winner n == some e.2.1 && e.2.2 + 4 ≤ clk

/-- One bank. -/
def Evt.bankAt (v : Evt) (bank : Nat) : BankSt := sget BankSt.reset v.bank bank

/-- Update one bank. -/
def Sw.onBank (s : Sw) (bank : Nat) (f : BankSt → BankSt) : Sw :=
  s.onEvt fun e => { e with bank := sset BankSt.reset e.bank bank (f (e.bankAt bank)) }

/-! ## Reads (R355 to R364) -/

/-- Low or high 32 bits of a 64-bit value. -/
def lo32 (x : BitVec 64) : Nat := x.toNat % 2 ^ 32
def hi32 (x : BitVec 64) : Nat := x.toNat / 2 ^ 32

/-- ID block (R355, R3). -/
def idRead (p : Params) (off : Nat) : Option Nat :=
  match off with
  | 0x00 => some (0x47C5 + 0x0128 * 2 ^ 16)
  | 0x04 => some 0x02010000
  | 0x08 => some (p.sliceIndex.toNat + p.sliceRid.toNat * 2 ^ 16)
  | 0x0C => some (p.aptBase.toNat / 2 ^ 26)
  | 0x10 => some (p.syncBase.toNat % 2 ^ 32)
  | 0x14 => some (p.syncBase.toNat / 2 ^ 32)
  | _ => none

/-- HST_STATE (R356). -/
def hstState (ao : AlwaysOn) (s : Sw) : Nat :=
  s.life.st.code + s.fr.tickLost.toNat * 2 ^ 3 + ao.dom.dead.toNat * 2 ^ 4 + s.map.committed.toNat * 2 ^ 5
    + s.fr.switch.isSome.toNat * 2 ^ 6 + s.fr.active.num * 2 ^ 7
    + (if s.life.st == .safe then s.life.safeCause.toNat else 0) * 2 ^ 8 + s.fr.len * 2 ^ 16

/-- HST_DOMAIN (R357). -/
def hstDomain (d : DomRec) : Nat := d.dead.toNat + d.again.toNat * 2 + d.code.toNat * 2 ^ 4 + d.detail.toNat * 2 ^ 8

/-- HST_QOS_COMMIT (R318). -/
def qosCommit (s : Sw) : Nat := (lockedCount (s.fr.copy s.fr.active) s.fr.len + s.qos.sumSlots) + s.qos.sumMiss * 2 ^ 16

/-- HST block (R356 to R359, R318; HST_APT_SYNC is read by its own row). -/
def hstRead (ao : AlwaysOn) (s : Sw) (off : Nat) : Option Nat :=
  match off with
  | 0x100 => some (hstState ao s)
  | 0x104 => some (hstDomain ao.dom)
  | 0x108 => some (lo32 ao.dom.gtime)
  | 0x10C => some (hi32 ao.dom.gtime)
  | 0x110 => some (lo32 s.fr.bGtime)
  | 0x114 => some (hi32 s.fr.bGtime)
  | 0x118 => some (s.fr.lastSlip.toNat + s.fr.slips.toNat * 2 ^ 16)
  | 0x120 => some s.pin.aptTarget.toNat
  | 0x124 => some (s.pin.aptSize.toNat + (!s.pin.aptNext.isEmpty).toNat * 2 ^ 7)
  | 0x140 => some s.pin.syncCount.toNat
  | 0x180 => some (s.mp.level.toNat + s.qos.scaled.toNat * 4 + capLines s.mp.level s.fr.len * 2 ^ 16)
  | 0x184 => some (qosCommit s)
  | 0x188 => some (lo32 s.qos.missSlot)
  | 0x18C => some (hi32 s.qos.missSlot)
  | 0x190 => some (lo32 s.qos.missBw)
  | 0x194 => some (hi32 s.qos.missBw)
  | 0x198 => some (lo32 s.qos.missDl)
  | 0x19C => some (hi32 s.qos.missDl)
  | _ => none

/-- MBX_STATUS (R325). -/
def Chan.status (c : Chan) : Nat :=
  c.st.code + c.overrun.toNat * 4 + c.wrLost.toNat * 8 + c.code.toNat * 2 ^ 8 + c.seq.toNat * 2 ^ 16

/-- A 32-bit word of the MBX block (R325). -/
def mbxRead (ao : AlwaysOn) (s : Sw) (off : Nat) : Option Nat :=
  let n := BitVec.ofNat 2 ((off - 0x1000) / 0x100)
  let c := s.mbx.ch n
  let o := off % 0x100
  if o < 0x40 then some (bytesN c.cmd o 4)
  else if o < 0x80 then some (bytesN c.rsp (o - 0x40) 4)
  else if o == 0x80 then some 0
  else if o == 0x84 then some c.status
  else if o == 0x88 then some (ao.lehrEpoch.toNat + (ao.hostEpoch.getD n.toNat 0).toNat * 2 ^ 16)
  else none

/-- A bitmap register: bit i stands for ID 32n + i (R374). -/
def evtBits (s : Sw) (n : Nat) (f : EvtSrc → Bool) : Nat :=
  (List.range 32).foldl (fun a i =>
    let id := 32 * n + i
    if evtValid id && f (s.src id) then a + 2 ^ i else a) 0

/-- EVT_BANK_STAT (R374). -/
def bankStat (s : Sw) (bank : Nat) : Nat :=
  let b := s.evt.bankAt bank
  b.signalled.toNat + (s.evt.winner bank).getD 0 * 2 + b.sent.toNat * 2 ^ 16

/-- EVT block; EVT_CLAIM is read by its own row (R374). -/
def evtRead (s : Sw) (off : Nat) : Option Nat :=
  let o := off - 0x2000
  if o < 0x140 then
    let n := (o % 0x40) / 4
    match o / 0x40 with
    | 0 => some (evtBits s n (·.pend))
    | 1 => some (evtBits s n (·.pend))
    | 2 => some (evtBits s n (·.mask))
    | 3 => some (evtBits s n (·.mask))
    | _ => some (evtBits s n (·.active))
  else if 0x804 ≤ o && o < 0x1000 then
    let id := (o - 0x800) / 4
    some (if evtValid id then (s.src id).cfg.toNat else 0)
  else if 0x1000 ≤ o && o < 0x1100 then
    let b := bankNum (hostBank ((o - 0x1000) / 0x40) ((o / 0x20) % 2))
    match o % 0x20 with
    | 0 => some 0
    | 4 => some 0
    | 8 => some (s.evt.bankAt b).en.toNat
    | 12 => some (bankStat s b)
    | _ => none
  else if 0x1408 ≤ o && o < 0x1600 then
    let id := (o - 0x1400) / 8
    let i : BitVec 64 := if evtValid id then (s.src id).info else 0
    some (if o % 8 == 0 then lo32 i else hi32 i)
  else none

/-- Filter registers: RID, CLS, BASE pair, LIM pair (R435). -/
def filtRead (f : Filt) (k : Nat) : Nat :=
  match k with
  | 0 => f.rid.toNat
  | 1 => f.cls.toNat
  | 2 => lo32 f.base
  | 3 => hi32 f.base
  | 4 => lo32 f.lim
  | _ => hi32 f.lim

/-- PMC block (R435). -/
def pmcRead (s : Sw) (off : Nat) : Option Nat :=
  let b := (off - 0x4000) / 0x100
  let o := off % 0x100
  let half (v : BitVec 48) (hi : Bool) : Nat := if hi then v.toNat / 2 ^ 32 else v.toNat % 2 ^ 32
  if b < 12 then
    if o < 0x40 then some (half (sget 0 s.pmc.cnt (8 * b + o / 8)) (o % 8 == 4))
    else if o < 0x80 then some (half (sget 0 s.pmc.snap (8 * b + (o - 0x40) / 8)) (o % 8 == 4))
    else if o < 0xA0 then some (sget 0 s.pmc.cfg (8 * b + (o - 0x80) / 4)).toNat
    else if o < 0xB8 then some (filtRead (sget Filt.reset s.pmc.filt b) ((o - 0xA0) / 4))
    else none
  else if b == 12 then
    match o with
    | 0x00 => some (s.pmc.k.toNat + (decide (s.pmc.units < 12)).toNat * 2 ^ 8)
    | 0x04 => some s.pmc.skipped.toNat
    | 0x08 => some s.pmc.gen.toNat
    | 0x10 => some (lo32 s.pmc.gtime)
    | 0x14 => some (hi32 s.pmc.gtime)
    | 0x20 => some s.pmc.slot0.toNat
    | 0x24 => some s.pmc.slot1.toNat
    | 0x28 => some s.pmc.slot2.toNat
    | 0x30 => some (lo32 s.pmc.slotGtime)
    | 0x34 => some (hi32 s.pmc.slotGtime)
    | _ => none
  else none

/-- TRC block (R438). -/
def trcRead (s : Sw) (off : Nat) : Option Nat :=
  match off - 0x6000 with
  | 0x00 => some s.trc.ctrl.toNat
  | 0x04 => some (filtRead s.trc.filt 0)
  | 0x08 => some (filtRead s.trc.filt 1)
  | 0x10 => some (filtRead s.trc.filt 2)
  | 0x14 => some (filtRead s.trc.filt 3)
  | 0x18 => some (filtRead s.trc.filt 4)
  | 0x1C => some (filtRead s.trc.filt 5)
  | 0x20 => some (s.trc.buf.length + s.trc.dropped.toNat * 2 ^ 16)
  | _ => none

/-- RST_CAUSE (R360). -/
def CauseReg.word (c : CauseReg) : Nat := c.cause.toNat + c.reach.toNat * 2 ^ 4 + c.unit.toNat * 2 ^ 6

/-- RST_COUNT0 or RST_COUNT1: four counters from cause `c` on (R361). -/
def countWord (ao : AlwaysOn) (c : Nat) : Nat :=
  (ao.counts.getD (c - 1) 0).toNat + (ao.counts.getD c 0).toNat * 2 ^ 8
    + (ao.counts.getD (c + 1) 0).toNat * 2 ^ 16 + (ao.counts.getD (c + 2) 0).toNat * 2 ^ 24

/-- State of one tier as RST_PWR_STATUS shows it (R422). -/
def tierCode (ao : AlwaysOn) (i : Nat) : Nat := (ao.tiers.getD i Tier.off).st.code

/-- RST_PWR_STATUS (R422). -/
def pwrStatus (ao : AlwaysOn) (s : Sw) : Nat :=
  tierCode ao 0 + tierCode ao 1 * 2 ^ 4 + tierCode ao 2 * 2 ^ 8 + tierCode ao 3 * 2 ^ 12
    + s.fr.ramp * 2 ^ 16 + s.life.sweep.isSome.toNat * 2 ^ 20

/-- RST block (R360 to R362, R421, R422). -/
def rstRead (ao : AlwaysOn) (s : Sw) (off : Nat) : Option Nat :=
  match off - 0x7000 with
  | 0x00 => some ao.cause.word
  | 0x10 => some (countWord ao 1)
  | 0x14 => some (countWord ao 5)
  | 0x18 => some (ao.mode.toNat + ao.bakLost.toNat * 2 ^ 8)
  | 0x1C => some ao.lock.toNat
  | 0x20 => some 0
  | 0x24 => some 0
  | 0x30 => some ao.tierOff.toNat
  | 0x34 => some (pwrStatus ao s)
  | _ => none

/-- TEL block (R363, R364). -/
def telRead (s : Sw) (off : Nat) : Option Nat :=
  let t := s.tel
  let o := off - 0x8000
  let temp (i : Nat) : Nat := (t.regs.temp.getD (2 * i) 0).toNat + (t.regs.temp.getD (2 * i + 1) 0).toNat * 2 ^ 16
  match o with
  | 0x00 => some t.gen.toNat
  | 0x04 => some (t.period.toNat + (decide (t.units < 4)).toNat * 2 ^ 8)
  | 0x08 => some (lo32 t.gtime)
  | 0x0C => some (hi32 t.gtime)
  | 0x50 => some t.regs.corr.toNat
  | 0x54 => some t.regs.uncorr.toNat
  | 0x58 => some t.regs.metaErr.toNat
  | 0x5C => some t.regs.parity.toNat
  | 0x60 => some t.regs.lap.toNat
  | 0x64 => some t.regs.lines.toNat
  | 0x68 => some t.regs.cals.toNat
  | 0x70 => some (lo32 t.regs.calPend)
  | 0x74 => some (hi32 t.regs.calPend)
  | _ =>
    if 0x10 ≤ o && o ≤ 0x20 then some (temp ((o - 0x10) / 4))
    else if 0x30 ≤ o && o ≤ 0x40 then some (t.regs.droop.getD ((o - 0x30) / 4) 0).toNat
    else none

/-- What a 4-B aligned offset of the window reads; none when no register lies there (R350, R351). -/
def regRead (p : Params) (ao : AlwaysOn) (s : Sw) (off : Nat) : Option Nat :=
  if off % 4 != 0 then none
  else if off < 0x100 then idRead p off
  else if off < 0x1000 then hstRead ao s off
  else if off < 0x1400 then mbxRead ao s off
  else if off < 0x2000 then none
  else if off < 0x4000 then evtRead s off
  else if off < 0x6000 then pmcRead s off
  else if off < 0x7000 then trcRead s off
  else if off < 0x7100 then rstRead ao s off
  else if 0x8000 ≤ off && off < 0x8100 then telRead s off
  else none

/-! ## Checks of an access (R351 to R353, R361, R362, R421) -/

/-- IO status codes (R46). -/
def ioOK : BitVec 8 := 0
def ioDECODE : BitVec 8 := 1
def ioACCESS : BitVec 8 := 2
def ioPARITY : BitVec 8 := 3
def ioABORTED : BitVec 8 := 4

/-- A block reset holds a unit (R414). -/
def AlwaysOn.held (ao : AlwaysOn) (unit : Nat) : Bool := ao.blockHolds.any fun b => b.unit.toNat == unit

/-- A write to the offset requires PRIV 3 (R352). -/
def privileged (off : Nat) : Bool :=
  (0x1000 ≤ off && off < 0x1100) || (0x7000 ≤ off && off < 0x7100) || off == 0x104

/-- The status with which a write to one 32-bit half is refused; none when it is performed (R352, R361, R362, R421). -/
def refuseHalf (ao : AlwaysOn) (s : Sw) (priv : BitVec 2) (off : Nat) (v : BitVec 32) : Option (BitVec 8) :=
  if privileged off && priv != 3 then some ioACCESS
  else if off == 0x7024 && (fldN v 0 16 != 0xC1EA || ao.lock) then some ioACCESS
  else if off == 0x7020 then
    let reach := fldN v 16 2
    let unit := fldN v 18 3
    if fldN v 0 16 != 0x5A3C then some ioACCESS
    else if reach == 3 || (reach != 2 && unit != 0) || (reach == 2 && unit ≥ 6 && s.life.st != .quiesced) then some ioDECODE
    else none
  else if off == 0x7030 then
    let new : BitVec 4 := fld v 0 4
    if new == ao.tierOff then none
    else if !(s.life.st == .boot || s.life.st == .safe || s.life.st == .config) then some ioDECODE
    else if (new &&& ~~~ao.tierOff) != 0 && !s.pin.regions.isEmpty then some ioDECODE
    else none
  else none

/-- The 32-bit halves that an access covers, with their write data; none when its size or alignment breaks R351. An access to a
64-B mailbox buffer is one half. -/
def winHalves (off n : Nat) (payload : BitVec 512) : Option (List (Nat × BitVec 32)) :=
  if 0x1000 ≤ off && off < 0x1400 && off % 0x100 < 0x80 then
    if off % 0x40 + n ≤ 64 then some [(off, 0)] else none
  else if (n == 4 || n == 8) && off % n == 0 then
    some ((List.range (n / 4)).map fun i => (off + 4 * i, BitVec.ofNat 32 (bytesN payload (4 * i) 4)))
  else none

/-- The offset is mapped: a register or a byte of a mailbox buffer (R350, R351). -/
def mapped (p : Params) (ao : AlwaysOn) (s : Sw) (off : Nat) : Bool :=
  (0x1000 ≤ off && off < 0x1400 && off % 0x100 < 0x80) || (regRead p ao s off).isSome

/-- The status with which one half of an access is refused; none when it is performed (R351, R352). -/
def halfStatus (p : Params) (ao : AlwaysOn) (s : Sw) (f : Io) (h : Nat × BitVec 32) : Option (BitVec 8) :=
  if !mapped p ao s h.1 then some ioDECODE
  else if f.op == 0x02 then refuseHalf ao s f.priv h.1 h.2
  else none

/-- The status of a window access at its acceptance: OK when it is to act (R38, R351 to R353). -/
def winStatus (p : Params) (ao : AlwaysOn) (s : Sw) (f : Io) (parErr : Bool) (off : Nat) : BitVec 8 :=
  let n := f.len.toNat + 1
  let write := f.op == 0x02
  if write && parErr then ioPARITY
  else if ao.held 5 && 0x4000 ≤ off && off < 0x6000 then ioABORTED
  else if ao.held 4 && 0x6000 ≤ off && off < 0x7000 then ioABORTED
  else
    match winHalves off n f.payload with
    | none => ioDECODE
    | some hs => (hs.findSome? (halfStatus p ao s f)).getD ioOK

end Sys2Proof.Machine
end

