-- ==== Sys2Proof/Machine/Window.lean ====
section
/-! DEFINITION. Accesses to the register window and the rows that perform them, one 32-bit half at a time, in arrival order
(15, R350 to R364; 14, R325 to R331; 16, R370 to R375; 12, R296; 18, R421, R423; 19, R431, R438). -/
namespace Sys2Proof.Machine

/-! ## Acceptance and completion (R351 to R354) -/

/-- A window access at its acceptance, whose status is `st`: refused, or queued to act (R351 to R353). -/
def Sw.winAccept (s : Sw) (p : Params) (f : Io) (off : Nat) (st : BitVec 8) : Sw :=
  if st != ioOK then s.answerIo p f (s.fr.clk + 14) st 0 none
  else
    s.onPipe fun q => { q with
      win := q.win ++ [⟨s.fr.clk, f, f.op == 0x02, off, (winHalves off (f.len.toNat + 1) f.payload).getD [], 0⟩] }

/-- The row that performs one 32-bit half of a window access. -/
inductive HalfKind where
  | plainRead | claim | aptSync
  | mbxCmd | doorbell | epoch
  | complete | pendSet | pendClr | maskSet | maskClr
  | domClear | swCold | swWarm | swBlock | cntClr | pwrCtrl | pmcClr | plainWrite
  deriving DecidableEq, Repr

/-- Which row performs a half. -/
def halfKind (write : Bool) (off : Nat) (v : BitVec 32) : HalfKind :=
  let bankReg := 0x3000 ≤ off && off < 0x3100
  if !write then
    if bankReg && off % 0x20 == 0 then .claim else if off == 0x140 then .aptSync else .plainRead
  else if 0x1000 ≤ off && off < 0x1400 then
    let o := off % 0x100
    if o < 0x40 then .mbxCmd else if o == 0x80 then .doorbell else if o == 0x88 then .epoch else .plainWrite
  else if 0x2000 ≤ off && off < 0x2040 then .pendSet
  else if 0x2040 ≤ off && off < 0x2080 then .pendClr
  else if 0x2080 ≤ off && off < 0x20C0 then .maskSet
  else if 0x20C0 ≤ off && off < 0x2100 then .maskClr
  else if bankReg && off % 0x20 == 4 then .complete
  else if off == 0x104 then .domClear
  else if off == 0x7020 then (match fldN v 16 2 with
    | 0 => .swCold
    | 1 => .swWarm
    | _ => .swBlock)
  else if off == 0x7024 then .cntClr
  else if off == 0x7030 then .pwrCtrl
  else if 0x4000 ≤ off && off < 0x4C00 && 0x80 ≤ off % 0x100 && off % 0x100 < 0xA0 && bitAt v 2 then .pmcClr
  else .plainWrite

/-- The half that acts next: its access, offset and write data. One access acts in a clk (R354, R375). -/
def Sw.front (s : Sw) : Option (WinAcc × Nat × BitVec 32) :=
  if s.fr.clk < s.pipe.winAt then none
  else match s.pipe.win with
  | a :: _ => match a.halves with
    | h :: _ => some (a, h.1, h.2)
    | [] => none
  | [] => none

/-- The half at the front has acted and read `n` bytes with value `v`; with its last half the access is answered, no
earlier than 14 clk after its acceptance (R84). -/
def Sw.halfDone (s : Sw) (p : Params) (n v : Nat) : Sw :=
  match s.pipe.win with
  | a :: l => match a.halves with
    | h :: hs =>
      let r := putBytes a.rdata (h.1 - a.off) n v
      if hs.isEmpty then
        (s.onPipe fun q => { q with win := l, winAt := s.fr.clk + 1 }).answerIo p a.f (max (a.acc + 14) s.fr.clk) ioOK (if a.write then 0 else r) none
      else s.onPipe fun q => { q with win := { a with halves := hs, rdata := r } :: l }
    | [] => s.onPipe fun q => { q with win := l }
  | [] => s

/-- Reads of plain registers at the front act in the clk in which they come to the front; an 8-B read acts whole (R354). -/
def Sw.drainReads (p : Params) (ao : AlwaysOn) : Nat → Sw → Sw
  | 0, s => s
  | fuel + 1, s =>
    match s.front with
    | some (a, off, _) =>
      if !a.write && halfKind false off 0 == .plainRead then
        if 0x1000 ≤ off && off < 0x1400 && off % 0x100 < 0x80 then
          let c := s.mbx.ch (BitVec.ofNat 2 ((off - 0x1000) / 0x100))
          let n := a.f.len.toNat + 1
          Sw.drainReads p ao fuel
            (s.halfDone p n (if off % 0x100 < 0x40 then bytesN c.cmd (off % 0x40) n else bytesN c.rsp (off % 0x40) n))
        else Sw.drainReads p ao fuel (s.halfDone p 4 ((regRead p ao s off).getD 0))
      else s
    | none => s

/-- All plain reads that have come to the front. -/
def Sw.reads (s : Sw) (p : Params) (ao : AlwaysOn) : Sw :=
  Sw.drainReads p ao (sumNat (s.pipe.win.map fun a => a.halves.length)) s

/-- A window row on the switched region: it acts when the half at the front is of its kind. -/
def State.window (s : State) (k : HalfKind) (f : Params → Nat → BitVec 32 → WinAcc → Sw → Sw) : State :=
  s.run fun p ao sw =>
    match sw.front with
    | some (a, off, v) =>
      if halfKind a.write off v == k then ((f p off v a sw).halfDone p 4 0).reads p ao else sw
    | none => sw

/-- A window row on the always-on region. -/
def State.windowAo (s : State) (k : HalfKind) (f : Params → BitVec 32 → AlwaysOn → Sw → AlwaysOn) : State :=
  s.runAo fun p ao sw =>
    match sw.front with
    | some (a, off, v) =>
      if halfKind a.write off v == k then (f p v ao sw, (sw.halfDone p 4 0).reads p (f p v ao sw)) else (ao, sw)
    | none => (ao, sw)

/-- Channel of an offset of the MBX block. -/
def chanOf (off : Nat) : BitVec 2 := BitVec.ofNat 2 ((off - 0x1000) / 0x100)

/-! ## Mailbox registers (R325, R327, R331) -/

/-- A write to MBX_CMD (R327). -/
def Sw.mbxWrite (s : Sw) (n : BitVec 2) (b len : Nat) (payload : BitVec 512) : Sw :=
  s.onCh n fun c =>
    if c.st == .running then { c with wrLost := true }
    else { c with cmd := putBytes c.cmd b len (bytesN payload 0 len) }

/-- A doorbell (R327): it posts a command with its SEQ, or sets OVERRUN. -/
def Sw.doorbell (s : Sw) (n : BitVec 2) (seq : BitVec 16) : Sw :=
  let c := s.mbx.ch n
  if c.st == .idle || c.st == .done then
    (s.onCh n fun c => { c with st := .posted, seq := seq, rereads := 0, rereadAt := none }).raise (480 + n.toNat) 0
  else (s.onCh n fun c => { c with overrun := true }).count 10 6 1 none

/-- MBX_CMD_WRITE. -/
def execMbxCmdWrite (s : State) : Host.Outcome State Fault Refusal :=
  .next (s.window .mbxCmd fun _ off _ a sw => sw.mbxWrite (chanOf off) (off % 0x40) (a.f.len.toNat + 1) a.f.payload)

/-- MBX_DOORBELL. -/
def execMbxDoorbell (s : State) : Host.Outcome State Fault Refusal :=
  .next (s.window .doorbell fun _ off v _ sw => sw.doorbell (chanOf off) (fld v 0 16))

/-- MBX_EPOCH_WRITE (R331): HOST_EPOCH alone can be written. -/
def execMbxEpochWrite (s : State) : Host.Outcome State Fault Refusal :=
  .next (s.runAo fun p ao sw =>
    match sw.front with
    | some (a, off, v) =>
      if halfKind a.write off v == .epoch then
        let ao' := { ao with hostEpoch := ao.hostEpoch.set (chanOf off).toNat (fld v 16 16) }
        (ao', (sw.halfDone p 4 0).reads p ao')
      else (ao, sw)
    | none => (ao, sw))

/-! ## Event registers (R371, R372, R374) -/

/-- The bank whose registers hold an offset. -/
def bankOfOff (off : Nat) : Bank := hostBank ((off - 0x3000) / 0x40) ((off / 0x20) % 2)

/-- A claim (R371): what EVT_CLAIM returns, and its effect. -/
def Sw.claim (s : Sw) (b : Bank) : Sw × Nat :=
  let n := bankNum b
  match s.evt.winner n with
  | some id =>
    let e := s.src id
    ((s.onSrc id fun e => { e with pend := false, occ := 0, age := 0, active := true, claimant := some b }).onBank n
      fun k => { k with signalled := false }, id + e.occ.toNat * 2 ^ 16)
  | none => if (s.evt.bankAt n).signalled then (s.onBank n fun k => { k with signalled := false }, 0x3FF) else (s, 0)

/-- A write of EVT_COMPLETE (R372). -/
def Sw.complete (s : Sw) (b : Bank) (id : Nat) : Sw :=
  if evtValid id then s.onSrc id fun e => if e.active && e.claimant == some b then { e with active := false, claimant := none, freed := true } else e
  else s

/-- The shared sources that a bitmap write names (R374). -/
def namedIds (n : Nat) (v : BitVec 32) : List Nat :=
  ((List.range 32).filter fun i => bitAt v i && evtValid (32 * n + i)).map fun i => 32 * n + i

/-- EVT_CLAIM. -/
def execEvtClaim (s : State) : Host.Outcome State Fault Refusal :=
  .next (s.run fun p ao sw =>
    match sw.front with
    | some (a, off, v) =>
      if halfKind a.write off v == .claim then
        let (sw, r) := sw.claim (bankOfOff off)
        (sw.halfDone p 4 r).reads p ao
      else sw
    | none => sw)

/-- EVT_COMPLETE. -/
def execEvtComplete (s : State) : Host.Outcome State Fault Refusal :=
  .next (s.window .complete fun _ off v _ sw => sw.complete (bankOfOff off) (fldN v 0 10))

/-- EVT_PEND_SET: one software occurrence of each source, INFO 0. -/
def execEvtPendSet (s : State) : Host.Outcome State Fault Refusal :=
  .next (s.window .pendSet fun _ off v _ sw => (namedIds ((off - 0x2000) / 4) v).foldl (fun s id => s.raise id 0) sw)

/-- EVT_PEND_CLR. -/
def execEvtPendClr (s : State) : Host.Outcome State Fault Refusal :=
  .next (s.window .pendClr fun _ off v _ sw =>
    (namedIds ((off - 0x2040) / 4) v).foldl (fun s id => s.onSrc id fun e => { e with pend := false, occ := 0, age := 0 }) sw)

/-- EVT_MASK_SET. -/
def execEvtMaskSet (s : State) : Host.Outcome State Fault Refusal :=
  .next (s.window .maskSet fun _ off v _ sw =>
    (namedIds ((off - 0x2080) / 4) v).foldl (fun s id => s.onSrc id fun e => { e with mask := true }) sw)

/-- EVT_MASK_CLR. -/
def execEvtMaskClr (s : State) : Host.Outcome State Fault Refusal :=
  .next (s.window .maskClr fun _ off v _ sw =>
    (namedIds ((off - 0x20C0) / 4) v).foldl (fun s id => s.onSrc id fun e => { e with mask := false }) sw)

/-! ## Always-on registers (R357, R361, R362, R421, R423) -/

/-- HST_DOMAIN_CLEAR (R357): a write of 1 to DEAD, except in FENCED. The record is kept until the end of the clk, because a
declaration of the same clk undoes the write (R9). -/
def execHstDomainClear (s : State) : Host.Outcome State Fault Refusal :=
  .next (s.runAo fun p ao sw =>
    match sw.front with
    | some (a, off, v) =>
      if halfKind a.write off v == .domClear then
        let clears := bitAt v 0 && sw.life.st != .fenced
        let ao' := if clears then { ao with dom := DomRec.clear } else ao
        let sw := if clears then sw.onLife fun l => { l with domClr := some (l.domClr.getD ao.dom) } else sw
        (ao', (sw.halfDone p 4 0).reads p ao')
      else (ao, sw)
    | none => (ao, sw))

/-- A software reset waits for its response to leave; its 2 µs count from then (R362). -/
def AlwaysOn.request (ao : AlwaysOn) (reach : BitVec 2) (unit : BitVec 3) : AlwaysOn :=
  { ao with swReset := ao.swReset ++ [⟨6, reach, unit, 0⟩] }

/-- RST_SWREQ_COLD. -/
def execRstSwreqCold (s : State) : Host.Outcome State Fault Refusal :=
  .next (s.windowAo .swCold fun _ _ ao _ => ao.request 0 0)

/-- RST_SWREQ_WARM. -/
def execRstSwreqWarm (s : State) : Host.Outcome State Fault Refusal :=
  .next (s.windowAo .swWarm fun _ _ ao _ => ao.request 1 0)

/-- RST_SWREQ_BLOCK. -/
def execRstSwreqBlock (s : State) : Host.Outcome State Fault Refusal :=
  .next (s.windowAo .swBlock fun _ v ao _ => ao.request 2 (fld v 18 3))

/-- The counters after some causes, each counted once up to 255, in SERVICE alone (R361). -/
def countCauses (mode : BitVec 2) (causes : List (BitVec 4)) (counts : List (BitVec 8)) : List (BitVec 8) :=
  if mode != 0 then counts
  else counts.zipIdx.map fun e =>
    if causes.any (fun c => c.toNat == e.2 + 1) then (if e.1 = 255 then 255 else e.1 + 1) else e.1

/-- RST_CNT_CLR (R361): the clear acts before what the same clk counts. -/
def execRstCntClr (s : State) : Host.Outcome State Fault Refusal :=
  .next (s.windowAo .cntClr fun _ _ ao _ => { ao with counts := countCauses 0 ao.counted (List.replicate 8 0) })

/-- One tier after a change of its TIER_OFF bit (R423). -/
def Tier.change (t : Tier) (off : Bool) : Tier :=
  match off, t.st with
  | true, .poweringUp => { t with st := .pendingOff }
  | true, .filling => { t with st := .pendingOff }
  | true, .pendingReenable => { t with st := .poweringDown }
  | false, .poweringDown => { t with st := .pendingReenable }
  | false, .pendingOff => { t with st := if t.ready then .filling else .poweringUp }
  | _, _ => t

/-- A write of TIER_OFF (R421, R423). -/
def AlwaysOn.writeTierOff (ao : AlwaysOn) (v : BitVec 4) : AlwaysOn :=
  { ao with
    tierOff := v
    tiers := ao.tiers.zipIdx.map fun e => if bitAt v e.2 != bitAt ao.tierOff e.2 then e.1.change (bitAt v e.2) else e.1 }

/-- RST_PWR_CTRL_WRITE. -/
def execRstPwrCtrlWrite (s : State) : Host.Outcome State Fault Refusal :=
  .next (s.windowAo .pwrCtrl fun _ v ao _ => ao.writeTierOff (fld v 0 4))

/-! ## Counters and plain registers (R7, R318, R363, R374, R431, R435, R438) -/

/-- PMC_CFG fields EN, FILT and OVF (W1C) after a write; a wrap of the same clk leaves OVF set (R9, R435). -/
def cfgWrite (old : BitVec 4) (v : BitVec 32) (wraps : Bool) : BitVec 4 :=
  BitVec.ofNat 4 (fldN v 0 2 + (bitAt old 3 && (wraps || !bitAt v 3)).toNat * 8)

/-- A write of one PMC_CFG register. -/
def Sw.writeCfg (s : Sw) (k : Nat) (v : BitVec 32) : Sw :=
  s.onPmc fun p => { p with cfg := sset 0 p.cfg k (cfgWrite (sget 0 p.cfg k) v (p.wrapped.contains k)) }

/-- The counter of a PMC_CFG offset. -/
def cfgIndex (off : Nat) : Nat := 8 * ((off - 0x4000) / 0x100) + (off % 0x100 - 0x80) / 4

/-- PMC_CNT_CLR (R431): the live count is cleared, before what the same clk counts (R9); EN, FILT and OVF are written with it. -/
def execPmcCntClr (s : State) : Host.Outcome State Fault Refusal :=
  .next (s.window .pmcClr fun _ off v _ sw =>
    (sw.writeCfg (cfgIndex off) v).onPmc fun p =>
      { p with cnt := sset 0 p.cnt (cfgIndex off) (BitVec.ofNat 48 (sget 0 p.now (cfgIndex off))) })

/-- A write of one filter register (R435). -/
def Filt.write (f : Filt) (k : Nat) (v : BitVec 32) : Filt :=
  let lo (x : BitVec 64) : BitVec 64 := fld x 32 32 ++ (v &&& 0xFFFFFF80#32)
  let hi (x : BitVec 64) : BitVec 64 := (v &&& 0x000FFFFF#32) ++ fld x 0 32
  match k with
  | 0 => { f with rid := v &&& 0x0FFF0FFF }
  | 1 => { f with cls := v &&& 0x000F3F3F }
  | 2 => { f with base := lo f.base }
  | 3 => { f with base := hi f.base }
  | 4 => { f with lim := lo f.lim }
  | _ => { f with lim := hi f.lim }

/-- W1C on one half of a 64-bit register. -/
def clearHalf (x : BitVec 64) (hi : Bool) (v : BitVec 32) : BitVec 64 :=
  if hi then x &&& ~~~(v ++ 0#32) else x &&& ~~~(0#32 ++ v)

/-- EVT_SRC_CFG after a write: a TARGET of 5 to 7 is ignored (R374). -/
def srcCfgWrite (old v : BitVec 32) : BitVec 32 :=
  let v := v &&& 0x3FFFFFFF
  if fldN v 0 3 ≥ 5 then (v &&& ~~~7#32) ||| (old &&& 7#32) else v

/-- A write to a register of the switched region without a row of its own. -/
def Sw.writePlain (s : Sw) (off : Nat) (v : BitVec 32) : Sw :=
  if off < 0x1000 then
    match off with
    | 0x188 => s.onQos fun q => { q with missSlot := clearHalf q.missSlot false v }
    | 0x18C => s.onQos fun q => { q with missSlot := clearHalf q.missSlot true v }
    | 0x190 => s.onQos fun q => { q with missBw := clearHalf q.missBw false v }
    | 0x194 => s.onQos fun q => { q with missBw := clearHalf q.missBw true v }
    | 0x198 => s.onQos fun q => { q with missDl := clearHalf q.missDl false v }
    | 0x19C => s.onQos fun q => { q with missDl := clearHalf q.missDl true v }
    | _ => s
  else if off < 0x1400 then
    if off % 0x100 == 0x84 then
      s.onCh (chanOf off) fun c => { c with overrun := c.overrun && !bitAt v 2, wrLost := c.wrLost && !bitAt v 3 }
    else s
  else if 0x2804 ≤ off && off < 0x3000 then
    let id := (off - 0x2800) / 4
    if evtValid id then s.onSrc id fun e => { e with cfg := srcCfgWrite e.cfg v } else s
  else if 0x3000 ≤ off && off < 0x3100 then
    if off % 0x20 == 8 then s.onBank (bankNum (bankOfOff off)) fun b => { b with en := bitAt v 0 } else s
  else if 0x4000 ≤ off && off < 0x4C00 then
    let o := off % 0x100
    let b := (off - 0x4000) / 0x100
    if 0x80 ≤ o && o < 0xA0 then s.writeCfg (cfgIndex off) v
    else if 0xA0 ≤ o then
      s.onPmc fun p => { p with filt := sset Filt.reset p.filt b ((sget Filt.reset p.filt b).write ((o - 0xA0) / 4) v) }
    else s
  else if off == 0x4C00 then s.onPmc fun p => { p with k := fld v 0 8, since := 0 }
  else if off == 0x6000 then s.onTrc fun t => { t with ctrl := fld v 0 7 }
  else if off == 0x6004 then s.onTrc fun t => { t with filt := t.filt.write 0 v }
  else if off == 0x6008 then s.onTrc fun t => { t with filt := t.filt.write 1 v }
  else if 0x6010 ≤ off && off < 0x6020 then s.onTrc fun t => { t with filt := t.filt.write ((off - 0x6008) / 4) v }
  else if off == 0x8004 then s.onTel fun t => { t with period := fld v 0 8, since := 0 }
  else s

/-- A write to a register of the always-on region or backup domain without a row of its own: RST_MODE (RWL and W1C) and
RST_LOCK (W1S). -/
def AlwaysOn.writePlain (ao : AlwaysOn) (off : Nat) (v : BitVec 32) : AlwaysOn :=
  if off == 0x7018 then
    { ao with mode := if ao.lock then ao.mode else fld v 0 2, bakLost := ao.bakLost && !bitAt v 8 }
  else if off == 0x701C then { ao with lock := ao.lock || bitAt v 0 }
  else ao

/-- REGISTER_WRITE. -/
def execRegisterWrite (s : State) : Host.Outcome State Fault Refusal :=
  .next (s.runAo fun p ao sw =>
    match sw.front with
    | some (a, off, v) =>
      if halfKind a.write off v == .plainWrite then
        let ao' := ao.writePlain off v
        (ao', ((sw.writePlain off v).halfDone p 4 0).reads p ao')
      else (ao, sw)
    | none => (ao, sw))

/-! ## HST_APT_SYNC (R296) -/

/-- An aperture access that was accepted before a window access, from the same SRC, has not sent its response. -/
def Sw.aptBefore (s : Sw) (src : BitVec 12) (acc : Nat) : Bool := s.pin.aptOpen.any fun e => e.1 == src && e.2 < acc

/-- HST_APT_SYNC_READ: waits for the earlier aperture accesses of its SRC, and returns the count before the read. -/
def execHstAptSyncRead (s : State) : Host.Outcome State Fault Refusal :=
  .next (s.run fun p ao sw =>
    match sw.front with
    | some (a, off, v) =>
      if halfKind a.write off v == .aptSync && !sw.aptBefore a.f.src a.acc then
        let n := sw.pin.syncCount
        ((sw.onPin fun q => { q with syncCount := n + 1 }).halfDone p 4 n.toNat).reads p ao
      else sw
    | none => sw)

end Sys2Proof.Machine
end

