-- ==== Sys2Proof/Machine/Arrays.lean ====
section
/-! DEFINITION. Array accesses in their rank order (03, R75 to R79), responses and snoops leaving (R84, R107, R108, R176),
the eviction buffer (R121), verify reads (R382), and the home's timers (R190, R193, R204). -/
namespace Sys2Proof.Machine

/-! ## Array accesses (R75 to R79, R81) -/

/-- Entries of the eviction buffer that no line holds and no read has taken (R81, R121). -/
def Sw.evFree (s : Sw) : Nat := 32 - s.cache.ev.length - (s.cache.evWait.filter (·.taken)).length

/-- What an access does once it starts: a line write commits in the next clk, with every earlier write of its line that it stores
(R76, R79); the read for an eviction-buffer entry takes a free one (R81); a background write of a codeword or of a damaged line
takes effect (R73, R382, R383). -/
def Sw.startJob (s : Sw) (a : ArrAcc) : Sw :=
  match a.job with
  | .plain =>
    if a.write then s.onPipe fun p => { p with
      wr := updAll (fun w => a.loc == some w.loc && w.at_.isNone) (fun w => { w with at_ := some (s.fr.clk + 1) }) p.wr }
    else s
  | .evict ord => s.onCache fun c => { c with
      evWait := updFirst (fun e => e.ord == ord) (fun e => { e with read := false, taken := true, earliest := s.fr.clk + 6 }) c.evWait }
  | .wback st cw => (s.cwWritten st cw).count 3 2 1 none
  | .fix loc cws hdr => s.fixLine loc cws hdr
  | .verify st cw => s.verifyCw st cw

/-- Rank and order of waiting accesses (R77). -/
def ArrAcc.before (a b : ArrAcc) : Bool := a.rank < b.rank || (a.rank == b.rank && a.ord < b.ord)

/-- An access that may not start yet, whatever its pair: a read for the eviction buffer while no entry is free (R81, R121), and the
write of a cached line while the line it replaces has not been read into the buffer (R83, R119). -/
def Sw.blocked (s : Sw) (a : ArrAcc) : Bool :=
  match a.job with
  | .evict _ => s.evFree == 0
  | .plain => a.write && s.cache.evWait.any fun e => e.loc.isSome && e.loc == a.loc && (e.read || e.why == .victim)
      && a.loc.any fun l => tKind (s.tag l) == 0
  | _ => false

/-- The access that starts on a pair in this clk (R77): the first in order among those whose clk has come; one that is not a
locked-slot access waits while it would occupy a clk that a locked-slot access has reserved. -/
def Sw.nextAccess (s : Sw) (pair : Nat) : Option ArrAcc :=
  let mine := s.pipe.acc.filter fun a => a.pair == pair && !s.blocked a
  let ready := mine.filter fun a => a.at_ ≤ s.fr.clk
  let first := ready.foldl (fun (b : Option ArrAcc) a => match b with
    | some x => if a.before x then some a else some x
    | none => some a) none
  first.filter fun a => a.rank == 0 || !(mine.any fun b => b.rank == 0 && b.at_ == s.fr.clk + 1)

/-- Start an access: its bank pair is occupied for 2 clk; a wait moves the later stages of its request, and a locked-slot
request then raises LOCKED_LATE, once for each access that starts late (R77, R78; log 96). -/
def Sw.startAccess (s : Sw) (a : ArrAcc) : Sw :=
  let now := s.fr.clk
  let late := now - a.at_
  let w := s.whoOf a.ord
  let s := s.onPipe fun p => { p with
    acc := dropFirst (fun x => x == a) p.acc
    busy := if a.pair < 32 then sset 0 p.busy a.pair (now + 2) else p.busy }
  let s := (s.startJob a).count 3 0 1 w
  let s := if late > 0 then s.count 3 1 1 w else s
  let s := if late > 0 && a.rank == 0 then (s.raise 5 a.cls).count 0 5 1 w else s
  match a.flight with
  | none => s
  | some id => if late > a.lag then (s.shift id a.at_ (late - a.lag)).shiftDeps id 64 else s

/-- ARRAY_ACCESS_START on one bank pair. -/
def Sw.accessStart (s : Sw) (pair : Nat) : Sw :=
  if sget 0 s.pipe.busy pair ≤ s.fr.clk then
    match s.nextAccess pair with
    | some a => s.startAccess a
    | none => s
  else s

/-- ARRAY_ACCESS_START. -/
def execArrayAccessStart (pair : BitVec 5) (s : State) : Host.Outcome State Fault Refusal :=
  .next (s.run fun _ _ sw => sw.accessStart pair.toNat)

/-- Accesses of the logic-base arrays need no bank pair; each starts in the clk in which it is raised (R77 governs bank
pairs alone). -/
def Sw.baseAccesses (s : Sw) : Sw :=
  (s.pipe.acc.filter fun a => a.pair == 32).foldl (fun s a => s.startAccess a) s

/-- VERIFY_READ (R382): the oldest codeword that awaits its verify read is read again, through its bank pair at background rank. -/
def execVerifyRead (s : State) : Host.Outcome State Fault Refusal :=
  .next (s.run fun _ _ sw =>
    match sw.arr.verify with
    | (st, cw) :: l =>
      if sw.domainDown then sw else (sw.onArr fun a => { a with verify := l }).bgAccess (cwPair st cw) false (.verify st cw)
    | [] => sw)

/-! ## Responses (R84, R107, R108) -/

/-- A request waits on an access of its own that has not started, or on the result of one that does (R77, R79). -/
def Sw.stalled (s : Sw) (id : Nat) : Nat → Bool
  | 0 => false
  | fuel + 1 =>
    (s.pipe.acc.any fun a => a.flight == some id)
      || (s.pipe.flights.any fun f => f.id == id && f.deps.any fun d => s.stalled d.1 fuel)

/-- The lane of a response. -/
def Resp.lane (r : Resp) : Option Lane :=
  match r.body with
  | .rsp _ => some .rsp
  | .dat _ => some .dat
  | .io _ => some .io
  | .self _ _ _ _ => none

/-- A response may leave: its clk has come, its accesses have started, a line it sends to memory is in the buffer, and the
directory eviction that its request caused has closed (R196). -/
def Sw.ready (s : Sw) (r : Resp) : Bool :=
  r.due ≤ s.fr.clk
    && !(r.txn.any fun i => (s.txn i).any fun t => t.evict.isSome)
    && !(r.flight.any fun id => s.stalled id s.pipe.flights.length)
    && !(r.waitEv && s.cache.evWait.any fun e => e.flight == r.flight && e.why == .noAlloc)

/-- A lane's output register is free and may drive in this clk. -/
def Port.free (p : Port) (l : Lane) : Bool :=
  (p.isolate == .none || (l == .io && p.isolate == .fence)) && p.linkUp &&
  match l with
  | .io => p.ioOut.isNone | .rsp => p.rspOut.isNone | .dat => p.datOut.isNone
  | .snp => p.snpOut.isNone | .gth => p.gthOut.isNone | .req => p.reqOut.isNone

/-- After its response has left: the transaction waits for COMP_ACK or ends (R164, R181). -/
def Sw.answered (s : Sw) (r : Resp) : Sw :=
  match r.txn with
  | none => s
  | some i => (s.onTxn i fun t => if t.ph == .resp then t.afterResponse s.fr.clk else t).closeDone

/-- An access to RST_SWREQ has been answered: the 2 µs of its reset count from now (R362). -/
def AlwaysOn.timeReset (ao : AlwaysOn) (p : Params) (m : Io) : AlwaysOn :=
  let o := m.addr.toNat - p.regBase.toNat
  if m.op == 0x82 && m.status == ioOK && (o == 0x7020) then
    { ao with swReset := ao.swReset.map fun r => if r.due == 0 then { r with due := ao.refClk + usRef p 2 } else r }
  else ao

/-- A FAST delivery of a host bank can leave now; it goes ahead of every other flit on ky_io_out (R370). -/
def Sw.fastWaits (s : Sw) : Bool :=
  s.life.st != .fenced && [3, 5, 7, 9].any fun b =>
    (s.evt.bankAt b).en && !(s.evt.bankAt b).signalled && s.evt.ripe b s.fr.clk

/-- The response that leaves first on a lane: one with an exact offset (R107, R108), then the one due longest. -/
def Sw.nextResp (s : Sw) (l : Lane) : Option Resp :=
  let can := s.pipe.rsp.filter fun r => r.lane == some l && s.ready r
  (minBy (fun (r : Resp) => r.due) (can.filter (·.exact))).orElse fun _ => minBy (fun (r : Resp) => r.due) can

/-- The credit of a refused flit is returned in this clk, or in the next where the lane returns one already (R33, R95, R306). -/
def Port.creditNow (p : Port) (l : Lane) (now : Nat) : Port :=
  if p.crdPin.contains l then { p with crdDue := (l, now) :: p.crdDue }
  else { p with crdPin := p.crdPin ++ [l], credIn := p.credIn.set l (p.credIn.get l + 1) }

/-- One response leaves on its lane (R84, R108, R284). -/
def Sw.sendResp (s : Sw) (l : Lane) : Option (Sw × Resp) :=
  if !(s.port.free l && s.hasOut l) || (l == .io && s.fastWaits) then none
  else match s.nextResp l with
  | none => none
  | some r =>
    let s := (s.onPipe fun p => { p with rsp := dropFirst (fun x => x.seq == r.seq) p.rsp }).spendOut l
    let s := s.onPort fun p => match r.body with
      | .rsp m => { p with rspOut := some (rspFlit m) }
      | .dat m => { p with datOut := some (datFlit m) }
      | .io m => { p with ioOut := some (ioFlit m) }
      | .self _ _ _ _ => p
    let s := match r.apt with
      | some e => s.onPin fun q => { q with aptOpen := dropFirst (· == e) q.aptOpen }
      | none => s
    let s := match r.crd with
      | some c => s.onPort fun p => p.creditNow c s.fr.clk
      | none => s
    some ((s.answered r).sent 1 (r.flight.bind s.whoOf), r)

/-- RESPONSE_SEND. -/
def execResponseSend (ch : Lane) (s : State) : Host.Outcome State Fault Refusal :=
  .next (s.runAo fun p ao sw =>
    match sw.sendResp ch with
    | none => (ao, sw)
    | some (sw, r) => (match r.body with
      | .io m => ao.timeReset p m
      | _ => ao, sw))

/-! ## Snoops (R174 to R176) -/

/-- The oldest transaction with a snoop to send; the first snoop leaves no earlier than c9 (R176). -/
def Sw.snooper (s : Sw) : Option Txn :=
  minBy (fun (t : Txn) => t.seq) (s.home.txns.filter fun t => !t.toSnoop.isEmpty && t.acc + 9 ≤ s.fr.clk)

/-- SNOOP_SEND: one snoop of the oldest transaction that has one (R175, R176). -/
def Sw.sendSnoop (s : Sw) (p : Params) : Sw :=
  if s.domainDown || !(s.port.free .snp && s.hasOut .snp) then s
  else match s.snooper with
  | none => s
  | some t =>
    match t.toSnoop with
    | [] => s
    | a :: l =>
      let own := t.kind == .req
      let m : Snp := ⟨t.snpOp, BitVec.ofNat 12 t.idx, BitVec.ofNat 12 a, if own then t.r.src else p.sliceRid,
        if own then t.r.txn else 0, s.map.addr t.line, t.fwdOk⟩
      let s := (s.spendOut .snp).onPort fun q => { q with snpOut := some (snpFlit m) }
      let s := s.putTxn { t with toSnoop := l, await := t.await ++ [(a, s.fr.clk)] }
      let s := (s.count 2 0 1 (some t.r.who)).sent 1 (some t.r.who)
      s.traceLine 2 m.laddr ((m.op.toNat <<< 52) ||| (m.tgt.toNat <<< 60) ||| (t.idx <<< 72) ||| (m.laddr.toNat <<< 80))

/-- SNOOP_SEND. -/
def execSnoopSend (s : State) : Host.Outcome State Fault Refusal := .next (s.run fun p _ sw => sw.sendSnoop p)

/-! ## The eviction buffer (R121, R83, R119) -/

/-- A line may enter the buffer: its clk has come (R112), its array read has started, and an entry is free or taken for it (R81,
R83, R119). -/
def Sw.mayEnter (s : Sw) (e : EvWait) : Bool := !e.read && e.earliest ≤ s.fr.clk && (e.taken || s.evFree != 0)

/-- The response of a NO_ALLOC write moves by the clk by which its line entered late (R112). -/
def EvWait.moves (e : EvWait) (clk : Nat) (r : Resp) : Resp :=
  if e.why == .noAlloc && r.waitEv && r.flight == e.flight then { r with due := r.due + (clk - e.earliest) } else r

/-- EVICTION_BUFFER_ENTRY: the oldest waiting line takes a free entry (R121). It is the commit of a NO_ALLOC write (R112), and a
directory eviction that waited for its line may close (R181, R195). -/
def Sw.enterEv (s : Sw) : Sw :=
  match s.cache.evWait.find? s.mayEnter with
  | none => s
  | some e =>
    let s := (s.onPipe fun q => { q with rsp := q.rsp.map (e.moves s.fr.clk) }).onCache fun c => { c with
      evWait := dropFirst (fun x => x.ord == e.ord) c.evWait
      ev := c.ev ++ [⟨e.ord, e.line, e.ln, e.why, .waiting, 0, e.cls, e.who, s.fr.frameNo⟩] }
    (if e.why == .noAlloc then s.localDone e.flight else s).closeDone

/-- EVICTION_BUFFER_ENTRY. -/
def execEvictionBufferEntry (s : State) : Host.Outcome State Fault Refusal := .next (s.run fun _ _ sw => sw.enterEv)

/-! ## Retry tracker, tickets, timeouts (R190, R193, R204) -/

/-- RETRY_TRACKER_EXPIRY: an entry not matched by the 4th frame boundary after its last refusal is freed (R190). -/
def execRetryTrackerExpiry (entry : Nat) (s : State) : Host.Outcome State Fault Refusal :=
  .next (s.run fun _ _ sw => sw.onHome fun h => { h with
    tracker := dropFirst (fun k => k.slot == entry && k.lastFrame + 4 ≤ sw.fr.frameNo) h.tracker })

/-- COH_TICKET_LAPSE: the head ticket not used by the 4th frame boundary after it reached the head (R193). -/
def execCohTicketLapse (s : State) : Host.Outcome State Fault Refusal :=
  .next (s.run fun _ _ sw =>
    match sw.home.tickets with
    | k :: _ =>
      if sw.home.headFrame + 4 ≤ sw.fr.frameNo then
        ((sw.dropTicket fun x => x == k).onHome fun h => { h with
          tracker := dropFirst (fun t => t.is k.src k.txn k.line) h.tracker }).raise 13 k.src.toNat
      else sw
    | [] => sw)

/-- SNOOP_TIMEOUT: a snoop of the transaction unanswered for T_SNP clk (R204, R205). -/
def execSnoopTimeout (txn : BitVec 8) (s : State) : Host.Outcome State Fault Refusal :=
  .next (s.run fun _ _ sw =>
    match sw.txn txn.toNat with
    | some t => match t.await.find? fun a => a.2 + sw.tSnp ≤ sw.fr.clk with
      | some a => sw.fatal 5 a.1
      | none => sw
    | none => sw)

/-- COMP_ACK_TIMEOUT: a COMP_ACK missing for T_SNP clk (R204, R205). -/
def execCompAckTimeout (txn : BitVec 8) (s : State) : Host.Outcome State Fault Refusal :=
  .next (s.run fun _ _ sw =>
    match sw.txn txn.toNat with
    | some t =>
      if t.ph == .ack && !t.acked && t.ackFrom.any (fun c => c + sw.tSnp ≤ sw.fr.clk) then sw.fatal 6 t.r.src.toNat else sw
    | none => sw)

end Sys2Proof.Machine
end

