-- ==== Sys2Proof/Machine/Arrivals.lean ====
section
/-! DEFINITION. Flits arriving on the KY port: credits (02, R33 to R37), parity (R38), the request queue (13, R302 to R308),
the gather ingress buffer (04, R95; 09, R236), pairing and matching (07, R180). -/
namespace Sys2Proof.Machine

/-! ## What every input channel checks (R34, R38, R205) -/

/-- Channel codes of R205. -/
def laneCode : Lane → Nat
  | .req => 0 | .rsp => 1 | .dat => 2 | _ => 3

/-- Outcome of the checks of a coherent flit: `none` when the flit goes no further. -/
def Sw.admitFlit (s : Sw) (l : Lane) (bad : Nat) : Sw × Bool :=
  if !s.port.linkUp then (s, false)
  else
    let noCredit := s.port.credIn.get l == 0
    let s := if noCredit then s.fatal 4 (laneCode l) else s.spendIn l
    let s := if bad > 0 then (s.telParity bad).fatal 3 (laneCode l) else s
    if noCredit then (s, false)
    else if s.life.st == .fenced then (s, false)
    else if bad > 0 then (s.owe l 1, false)
    else (s, true)

/-! ## The request queue (R302, R304, R305, R306) -/

/-- DL_VALID is kept only for a deadline class (R304). -/
def Sw.keepDl (s : Sw) (cls : BitVec 6) (dl : Bool) : Bool := dl && (s.cls cls.toNat).deadline

/-- A request that has arrived at this clk, paired with a data flit that was held for it (R41, R180). -/
def Sw.newReq (s : Sw) (r : Req) : Sw × ReqEnt :=
  let r := { r with dlValid := s.keepDl r.qos r.dlValid }
  let e : ReqEnt := ⟨s.q.nextId, r, none, s.fr.clk, s.extendDeadline r.deadline, s.fr.frameNo, none⟩
  let s := s.onQ fun q => { q with nextId := q.nextId + 1 }
  if needsData r then
    match s.q.datWait.find? fun d => d.1.src == r.src && d.1.txn == r.txn with
    | some d => (s.onQ fun q => { q with datWait := dropFirst (fun x => x == d) q.datWait }, { e with dat := some d.1 })
    | none => (s, e)
  else (s, e)

/-- A refusal with QUOTA (R306): its data flit is discarded, and its RETRY leaves 10 clk later with its credit. -/
def Sw.quota (s : Sw) (p : Params) (e : ReqEnt) : Sw :=
  let s := if needsData e.r && e.dat.isNone then s.onQ fun q => { q with datDrop := q.datDrop ++ [(e.r.src, e.r.txn)] } else s
  let s := if (kindOf e.r.op).any (·.isAtomic) then s.count 5 6 1 (some e.r.who) else s
  (s.answer p (Ans.turnedAway e.r.txn e.r.src s.fr.clk .req) rRETRY stQUOTA 0).count 7 3 1 (some e.r.who)

/-- The rows of R305 for a REQ flit in the KY input register; none when it waits there. -/
def Sw.enterReq (s : Sw) (p : Params) (e : ReqEnt) : Option Sw :=
  let c := e.r.qos.toNat
  let par := s.cls c
  let enter : Sw := (s.onQ fun q => { q with req := q.req ++ [{ e with born := s.fr.frameNo }] }).owe .req 1
  if s.heldQ c ≥ par.qCap then some (s.quota p e)
  else if s.heldQ c < par.qRsv && s.freeQ ≥ 1 then some enter
  else if s.freeQ > s.owed then some enter
  else if s.freeQ ≥ 1 then some (s.quota p e)
  else none

/-- REQ_FLIT_ARRIVAL. -/
def Sw.reqArrives (s : Sw) (p : Params) (flit : BitVec 144) : Sw :=
  let (s, ok) := s.admitFlit .req (badBytes 16 (fldN flit 0 128) (fldN flit 128 16)).length
  if !ok then s
  else
    let r := reqOf flit
    let s := s.count 9 0 1 (some r.who)
    if s.life.drain.isSome then s.turnDead p r.txn r.src .req
    else
      let (s, e) := s.newReq r
      if !s.q.reqReg.isEmpty then s.onQ fun q => { q with reqReg := q.reqReg ++ [e] }
      else match s.enterReq p e with
        | some s => s
        | none => s.onQ fun q => { q with reqReg := q.reqReg ++ [e] }

/-- REQ_FLIT_ARRIVAL. -/
def execReqFlitArrival (flit : BitVec 144) (s : State) : Host.Outcome State Fault Refusal :=
  .next (s.run fun p _ sw => sw.reqArrives p flit)

/-- Requests in the KY input register enter in order as entries free (R305). -/
def Sw.fillReq (p : Params) : Nat → Sw → Sw
  | 0, s => s
  | n + 1, s =>
    match s.q.reqReg with
    | [] => s
    | e :: l =>
      match (s.onQ fun q => { q with reqReg := l }).enterReq p e with
      | some s => Sw.fillReq p n s
      | none => s

/-! ## DAT and RSP (R178, R180) -/

/-- A flit that matches nothing, or is not allowed (R180). -/
def Sw.cohProtocol (s : Sw) (src : BitVec 12) : Sw := s.raise 12 src.toNat

/-- A request waits for its data flit from this SRC with this TXN. -/
def ReqEnt.wants (e : ReqEnt) (d : Dat) : Bool :=
  e.self.isNone && e.dat.isNone && needsData e.r && e.r.src == d.src && e.r.txn == d.txn

/-- WDATA or OPERAND (R41, R93, R180, R306): paired, dropped with its refused request, or held. -/
def Sw.pairData (s : Sw) (d : Dat) : Sw :=
  let paired (e : ReqEnt) : ReqEnt := { e with dat := some d, arr := s.fr.clk, df := s.extendDeadline e.r.deadline }
  if s.q.req.any (·.wants d) then s.onQ fun q => { q with req := updFirst (·.wants d) paired q.req }
  else if s.q.reqReg.any (·.wants d) then s.onQ fun q => { q with reqReg := updFirst (·.wants d) paired q.reqReg }
  else if s.q.datDrop.any (fun x => x.1 == d.src && x.2 == d.txn) then
    s.onQ fun q => { q with datDrop := dropFirst (fun x => x.1 == d.src && x.2 == d.txn) q.datDrop }
  else s.onQ fun q => { q with datWait := q.datWait ++ [(d, s.fr.clk)] }

/-- A self-raised request that expects COMP_DATA: an image read. -/
def SelfReq.reads (q : SelfReq) : Bool := q.g.isNone && q.r.op == 0x23

/-- The request that a DAT flit belongs to, as filters see it (R430): none for one that no request awaits. -/
def Sw.datWho (s : Sw) (d : Dat) : Option Who :=
  match d.dop.toNat with
  | 1 => (s.awaiting d.txn.toNat).map fun q => q.r.who
  | 2 => (s.txn d.txn.toNat).map fun t => t.r.who
  | _ => ((s.q.req ++ s.q.reqReg).find? (·.wants d)).map fun e => e.r.who

/-- DAT_FLIT_ARRIVAL. -/
def Sw.datArrives (s : Sw) (flit : BitVec 1224) : Sw :=
  let bad := (badBytes 128 (fldN flit 0 1024) (fldN flit 1024 128)).length + (badBytes 8 (fldN flit 1152 64) (fldN flit 1216 8)).length
  let (s, ok) := s.admitFlit .dat bad
  if !ok then s
  else
    let d := datOf flit
    let s := (s.owe .dat 1).count 9 1 1 (s.datWho d)
    if s.life.drain.isSome then s
    else match d.dop.toNat with
    | 0 => s.pairData d
    | 4 => s.pairData d
    | 1 =>
      match s.awaiting d.txn.toNat with
      | some q => if q.reads then s.ownAnswer q (.data ⟨d.data, d.poison, 0⟩) else s.cohProtocol d.src
      | none => s.cohProtocol d.src
    | 2 => (s.snpAnswer d.txn.toNat d.src d.state (some ⟨d.data, d.poison, 0⟩)).getD (s.cohProtocol d.src)
    | _ => s.cohProtocol d.src

/-- DAT_FLIT_ARRIVAL. -/
def execDatFlitArrival (flit : BitVec 1224) (s : State) : Host.Outcome State Fault Refusal :=
  .next (s.run fun _ _ sw => sw.datArrives flit)

/-- An RSP answer to a request of the slice's own: what it means, none when it is not allowed for that request (R180). -/
def SelfReq.answer (q : SelfReq) (m : Rsp) : Option OwnAns :=
  match m.op.toNat with
  | 0xC1 => if q.g.isNone && !q.reads then some .done else none
  | 0xC4 => if q.g.isSome then some .done else none
  | 0xC5 => some .retry
  | 0xC6 => some (.error m.status)
  | _ => none

/-- RSP_FLIT_ARRIVAL. -/
def Sw.rspArrives (s : Sw) (flit : BitVec 72) : Sw :=
  let (s, ok) := s.admitFlit .rsp (badBytes 8 (fldN flit 0 64) (fldN flit 64 8)).length
  if !ok then s
  else
    let m := rspOf flit
    let s := s.owe .rsp 1
    if s.life.drain.isSome then s
    else if m.op == rSNP_RESP then (s.snpAnswer m.txn.toNat m.src m.state none).getD (s.cohProtocol m.src)
    else if m.op == rCOMP_ACK then (s.compAck m.src m.txn).getD (s.cohProtocol m.src)
    else match s.awaiting m.txn.toNat with
      | some q => match q.answer m with
        | some a => s.ownAnswer q a
        | none => s.cohProtocol m.src
      | none => s.cohProtocol m.src

/-- RSP_FLIT_ARRIVAL. -/
def execRspFlitArrival (flit : BitVec 72) (s : State) : Host.Outcome State Fault Refusal :=
  .next (s.run fun _ _ sw => sw.rspArrives flit)

/-! ## Contributions (R95, R236) -/

/-- Ingress entries in use, reserved ones when `res`. -/
def Sw.ingUsed (s : Sw) (res : Bool) : Nat := (s.q.gth.filter fun e => e.fwd.isNone && e.ingRes == res).length

/-- The entry that a class may take of `rsv` reserved and `shared` shared ones: `some true` a reserved one (R95, R236). -/
def takeEntry (lockedOnly : Bool) (usedRsv usedShared rsv shared : Nat) : Option Bool :=
  if lockedOnly && usedRsv < rsv then some true
  else if usedShared < shared then some false
  else none

/-- The slot of this clk admits a REQ or GTH request (R426, R206, R21). -/
def Sw.enabled (s : Sw) : Bool := s.fr.pos % 8 < s.fr.ramp && !s.domainDown

/-- Accepted directly from the input register in its own locked or owned slot (R95). -/
def Sw.goesDirect (s : Sw) (g : Gth) : Bool :=
  let e := s.fr.entry s.fr.pos
  s.enabled && eValid e && eChan e == 1 && eClass e == g.qos.toNat && s.pipe.adder ≤ s.fr.clk && s.q.direct.isNone
    && !(s.gthReady.any fun x => x.g.qos == g.qos)

/-- A contribution refused before it has arrived: RETRY or ERROR leaves 10 clk later with its credit (R95, R414). -/
def Sw.gthRefused (s : Sw) (p : Params) (g : Gth) (op status : BitVec 8) : Sw :=
  (s.answer p (Ans.turnedAway g.txn g.src s.fr.clk .gth) op status 0).count 4 (if op == rRETRY then 1 else 2) 1 (some g.who)

/-- GTH_FLIT_ARRIVAL. -/
def Sw.gthArrives (s : Sw) (p : Params) (ao : AlwaysOn) (flit : BitVec 1296) : Sw :=
  let (s, ok) := s.admitFlit .gth (badBytes 16 (fldN flit 0 128) (fldN flit 1152 16)).length
  if !ok then s
  else
    let bad := gthBadBytes flit
    let g := gthOf flit
    let g := { g with poison := g.poison ||| groupsOf bad, dlValid := s.keepDl g.qos g.dlValid }
    let s := if bad.isEmpty then s else s.telParity bad.length
    let s := s.count 9 2 1 (some g.who)
    if s.life.drain.isSome then s.turnDead p g.txn g.src .gth
    else if ao.held 0 then s.gthRefused p g rERROR stABORTED
    else
      let lo := s.fr.lockedOnly g.qos.toNat 1
      match takeEntry lo (s.roUsed true) (s.roUsed false) 32 64 with
      | none => s.gthRefused p g rRETRY stGTH_BUSY
      | some ro =>
        let e : GthEnt := ⟨s.q.nextId, g, s.fr.clk, s.extendDeadline g.deadline, s.fr.frameNo, false, ro, none⟩
        if s.goesDirect g then s.onQ fun q => { q with direct := some e, nextId := q.nextId + 1 }
        else match takeEntry lo (s.ingUsed true) (s.ingUsed false) 16 48 with
          | none => s.gthRefused p g rRETRY stGTH_BUSY
          | some ing =>
            (s.onQ fun q => { q with gth := q.gth ++ [{ e with ingRes := ing }], nextId := q.nextId + 1 }).owe .gth 1

/-- GTH_FLIT_ARRIVAL. -/
def execGthFlitArrival (flit : BitVec 1296) (s : State) : Host.Outcome State Fault Refusal :=
  .next (s.run fun p ao sw => sw.gthArrives p ao flit)

/-! ## IO (R34, R38, R46, R81) -/

/-- IO_FLIT_ARRIVAL. The credit stands for one of the eight entries of the IO queue: it returns when the entry frees (R81). -/
def Sw.ioArrives (s : Sw) (flit : BitVec 720) : Sw :=
  if !s.port.linkUp then s
  else
    let f := ioOf flit
    let bad := ioBadHeader flit
    let badPay := ioBadBytes flit
    if s.port.credIn.io == 0 then s.raise 10 f.src.toNat
    else
      let s := (s.spendIn .io).count 9 3 1 (some ⟨f.src, 0, f.priv, laddrOf f.addr⟩)
      if !bad.isEmpty then
        ((s.telParity bad.length).owe .io 1).raise 11 (if bad.contains 2 || bad.contains 3 then 0xFFF else f.src.toNat)
      else
        let s := if badPay.isEmpty then s else s.telParity badPay.length
        if f.op != 0x01 && f.op != 0x02 then (s.owe .io 1).raise 10 f.src.toNat
        else
          let e : IoEnt := ⟨s.q.nextId, f, s.fr.clk, s.fr.frameNo, !badPay.isEmpty⟩
          s.onQ fun q => { q with io := q.io ++ [e], nextId := q.nextId + 1 }

/-- IO_FLIT_ARRIVAL. -/
def execIoFlitArrival (flit : BitVec 720) (s : State) : Host.Outcome State Fault Refusal :=
  .next (s.run fun _ _ sw => sw.ioArrives flit)

/-! ## Credits (R33, R35) -/

/-- CREDIT_RETURN: one outbound credit; one that would pass 63 is ignored (R35). -/
def execCreditReturn (ch : Lane) (s : State) : Host.Outcome State Fault Refusal :=
  .next (s.run fun _ _ sw =>
    if sw.port.linkUp && (sw.port.credOut.get ch).toNat < 63 then
      sw.onPort fun q => { q with credOut := q.credOut.set ch (q.credOut.get ch + 1) }
    else sw)

end Sys2Proof.Machine
end

