-- ==== Sys2Proof/Machine/Accept.lean ====
section
/-! DEFINITION. What an accepted request does, stage by stage: ACC at acceptance, MAP 2 clk later and RES 7 clk later (03, R74,
R441): REQ requests (06, R145; 07), contributions (09, R215; 10, R250, R257) and IO accesses (02, R46; 06, R155; 11, R276; 15,
R351). -/
namespace Sys2Proof.Machine

/-! ## Requests that a slot admits -/

/-- Its class (R301: IO is class 0). -/
def Cand.cls : Cand → Nat
  | .req e => e.r.qos.toNat
  | .gth e => e.g.qos.toNat
  | .io _ => 0

/-- Its channel as a Stake entry names it: 0 REQ, 1 GTH, 2 IO. -/
def Cand.chan : Cand → Nat
  | .req _ => 0
  | .gth _ => 1
  | .io _ => 2

/-- Opcode for the ACCEPT record. -/
def Cand.op : Cand → Nat
  | .req e => e.r.op.toNat
  | .gth e => e.g.op.toNat
  | .io e => e.f.op.toNat

/-- The request of the slice's own that it carries out (R272). -/
def Cand.self : Cand → Option Nat
  | .req e => e.self
  | .gth e => e.fwd
  | .io _ => none

/-- It performs an atomic. -/
def Cand.atomic : Cand → Bool
  | .req e => (kindOf e.r.op).any (·.isAtomic)
  | _ => false

/-- The readout entry that it holds until HDR: `true` a reserved one; a local forward holds that of its close (R236, R250). -/
def Cand.ro : Cand → Option Bool
  | .gth e => if e.fwd.isSome then none else some e.roRes
  | _ => none

/-- Code of an outcome in an ACCEPT record. -/
def Outc.code : Outc → Nat
  | .done => 0 | .retry => 1 | .error => 2

/-- The region of a contribution whose line is homed here (R212, R257). -/
def Sw.candRegion (s : Sw) (p : Params) : Cand → Option Nat
  | .gth e => if s.isHome p e.g.laddr then (s.regionOf (s.map.index e.g.laddr)).map (·.1) else none
  | _ => none

/-- A request enters the pipeline: its number. -/
def Sw.newFlight (s : Sw) (p : Params) (c : Cand) (locked : Bool) : Sw × Nat :=
  let id := s.pipe.nextSeq
  let f : Flight := ⟨id, s.fr.clk, 0, locked, c.cls, s.candRegion p c, c.atomic, [], none, c.ro, c.who, c.self⟩
  (s.onPipe fun q => { q with flights := q.flights ++ [f], nextSeq := id + 1 }, id)

/-- The ACCEPT record, made at RES with the gtime of the acceptance (R436). -/
def Sw.traceAccept (s : Sw) (c : Cand) (gtime : BitVec 64) (o : Outc) : Sw :=
  let w := c.who
  if s.trc.filt.ok w then
    s.traceRec 1 gtime ((c.op <<< 52) ||| (w.src.toNat <<< 60) ||| (w.cls <<< 72) ||| (c.chan <<< 78) ||| (w.laddr.toNat <<< 80)
      ||| (o.code <<< 125))
  else s

/-- The outcome of an accepted request is known, and with it the class of its slot: RETIRED, or WASTED for a refusal (R433, R434). -/
def Sw.outcome (s : Sw) (acc : Nat) (c : Cand) (o : Outc) : Sw := s.slotClass acc (if o == .done then 0 else 1) (some c.who)

/-- The request goes through the pipeline to RES: `out` says that it has been answered already. -/
def Sw.stage (s : Sw) (p : Params) (c : Cand) (id : Nat) (locked : Bool) (out : Option Outc) : Sw :=
  let s := match out with
    | some o => s.outcome s.fr.clk c o
    | none => s
  s.onPipe fun q => { q with
    staged := q.staged ++ [⟨id, s.fr.clk, c, locked, out, s.fr.gtime, s.allocFor p c.who.src⟩] }

/-! ## REQ requests -/

/-- The answer of a refusal of a request accepted at clk `acc` (R84). STATE, which R43 defines for COMP and SNP_RESP alone, is 0
(log 97). -/
def Sw.refuseReq (s : Sw) (p : Params) (e : ReqEnt) (acc : Nat) (op status : BitVec 8) : Sw :=
  s.answer p (Ans.refusal e.r e.self acc) op status 0

/-- A REQ request at ACC (R441, stages 2 and 3): the outcome of a refusal. -/
def Sw.accReq (s : Sw) (p : Params) (e : ReqEnt) : Sw × Option Outc :=
  let r := e.r
  let now := s.fr.clk
  match kindOf r.op with
  | none => (s.refuseReq p e now rERROR stDECODE, some .error)
  | some k =>
    if !formOk r || (k.caching && s.life.agents ≤ r.src.toNat) then (s.refuseReq p e now rERROR stDECODE, some .error)
    else if !s.isHome p (laddrOf r.addr) then ((s.count 9 6 1 (some r.who)).refuseReq p e now rERROR stNOT_HOME, some .error)
    else (s, none)

/-- A REQ request at MAP (R441, stage 4). -/
def Sw.mapReq (s : Sw) (p : Params) (e : ReqEnt) (acc : Nat) : Sw × Option Outc :=
  if (s.regionOf (s.map.index (laddrOf e.r.addr))).any fun x => x.2.owner != e.r.domain then
    (s.refuseReq p e acc rERROR stACCESS, some .error)
  else (s, none)

/-- CleanInvalidate of a KIND 1 or KIND 2 line at `loc` (R145): a dirty KIND 1 line goes to memory and stays bound. -/
def Sw.pinnedClean (s : Sw) (p : Params) (t : Txn) (typ loc rank : Nat) : Sw :=
  let s := if typ == 0 && s.dirtyAt loc then
      (s.evictRead loc .clean t.seq t.r.qos.toNat (t.acc + 12) rank).cleanPinned loc
    else s
  if (s.evCopies t.line).isEmpty then s.comp p t (t.acc + 24) 0
  else s.onPipe fun q => { q with cleans := q.cleans ++ [⟨t.line, t.acc, t.r, t.self, t.seq⟩] }

/-- RES of a request to a KIND 1 or KIND 2 line at `loc`, or of a read of a KIND 3 line (R145, R218, R442): reads at c12, writes at
c20; the offset of a read or write of a locked slot to a KIND 1 or KIND 2 line is exact (R107, R109, R218). -/
def Sw.pinnedReq (s : Sw) (p : Params) (t : Txn) (k : ReqKind) (typ loc : Nat) : Sw :=
  let rank := s.rankOf t.seq
  let exact := rank == 0 && typ != 2
  let dirty := typ == 0
  let write (s : Sw) (ln : Line) : Sw := s.wrLine t loc ln (t.acc + 20) rank dirty
  match k with
  | .writeInv =>
    let (s, ln, _) := ((s.checkMeta loc ⟨t.acc + 18, some t.seq⟩).1).modify t (s.peekLine loc)
    (write s ln).respondTo p t none t.acc 0 false exact
  | .writePart =>
    let (s, cur) := s.rdLine t loc (t.acc + 12) rank
    let (s, ln, _) := s.modify t cur
    (write s ln).respondTo p t none t.acc 0 false exact
  | .atomic _ _ =>
    let (s, cur) := s.rdLine t loc (t.acc + 12) rank
    let (s, ln, old) := s.modify t cur
    (write s ln).respondTo p t old t.acc 0 false false
  | .cleanInv => s.pinnedClean p t typ loc rank
  | _ =>
    let (s, ln) := s.rdLine t loc (t.acc + 12) rank
    let (s, ln) := s.carry t.seq ln
    s.answerData p (t.ans (t.acc + 40) false exact) ln 0

/-- Requests that a KIND permits (R145, R218). -/
def kindAllows (typ : Nat) (k : ReqKind) : Bool :=
  match k with
  | .upgrade => false
  | .writeBack => false
  | .evictClean => false
  | .readShared => true
  | .readUnique => true
  | .readOnce => true
  | _ => typ != 2

/-- RES of a REQ request (R441, stages 5 to 7): refused, or performed. One whose lookup of the tag or directory set finds a fatal cause
receives the answer of the dead domain (R205, R206, R381). -/
def Sw.resReq (s : Sw) (p : Params) (ao : AlwaysOn) (x : Staged) (e : ReqEnt) (k : ReqKind) : Sw × Outc :=
  let r := e.r
  let w := some r.who
  let line := s.map.index (laddrOf r.addr)
  let reg := s.regionOf line
  let s := s.checkTags (setOf line)
  let s := if reg.isNone then s.checkDir line else s
  if s.life.fatal.isSome then (s.answerAccDead p r e.self x.acc, .error)
  else if reg.any (fun x => x.2.ph != .bound) || ao.held 6 || ao.held 7 then
    let s := s.count 2 4 1 w
    let s := if k.isAtomic then s.count 5 6 1 w else s
    (s.refuseReq p e x.acc rRETRY stLINE_BUSY, .retry)
  else if reg.any fun x => !kindAllows x.2.typ.toNat k then (s.refuseReq p e x.acc rERROR stDECODE, .error)
  else if k.isAtomic && ao.held 1 then ((s.count 5 7 1 w).refuseReq p e x.acc rERROR stABORTED, .error)
  else match reg with
    | some (_, g) =>
      if s.heldLoc (g.loc line) then (s.refuse187 p e k line x.acc stLINE_BUSY, .retry)
      else
        let t := { Txn.blank 256 x.id x.acc line .req r x.alloc s.fr.frameNo with wdat := e.dat, self := e.self, df := e.df }
        (s.pinnedReq p t k g.typ.toNat (g.loc line), .done)
    | none =>
      let (s, refused) := s.resHome p e k line x.id x.acc x.alloc
      (s, if refused then .retry else .done)

/-! ## Contributions -/

/-- A gather walk bars contributions to a region (R257). -/
def Sw.gatherWalk (s : Sw) (r : Nat) : Bool :=
  match s.walk with
  | some w => match w.kind with
    | .save x _ _ _ _ _ => x == r
    | .restore x _ _ _ => x == r
    | .drain x => x == r
    | _ => false
  | none => false

/-- A refused contribution releases its readout entry and is answered 10 clk after acceptance (R84, R236). -/
def Sw.refuseGth (s : Sw) (p : Params) (e : GthEnt) (id acc : Nat) (op status : BitVec 8) : Sw :=
  let s := s.onFlight id fun f => { f with ro := none, region := none }
  let s := s.count 4 (if op == rRETRY then 1 else 2) 1 (some e.g.who)
  s.answer p { plainAns e.g.txn e.g.src 1 e.fwd (acc + 10) with exact := true } op status 0

/-- A contribution at ACC (R441, stages 2 and 3). -/
def Sw.accGth (s : Sw) (p : Params) (e : GthEnt) (id : Nat) : Sw × Option Outc :=
  let g := e.g
  if g.op != 0x01 then (s.refuseGth p e id s.fr.clk rERROR stDECODE, some .error)
  else if !s.isHome p g.laddr then ((s.count 9 6 1 (some g.who)).refuseGth p e id s.fr.clk rERROR stNOT_HOME, some .error)
  else (s, none)

/-- A contribution at MAP (R441, stage 4; R215). -/
def Sw.mapGth (s : Sw) (p : Params) (e : GthEnt) (id acc : Nat) : Sw × Option Outc :=
  if (s.regionOf (s.map.index e.g.laddr)).any fun x => x.2.owner != e.g.domain then
    (s.refuseGth p e id acc rERROR stACCESS, some .error)
  else (s, none)

/-- The close whose forward a local contribution is (R250). -/
def Sw.fwdOf (s : Sw) (e : GthEnt) : Option RoEnt :=
  (e.fwd.bind fun i => s.gth.self.find? fun q => q.id == i).bind fun q => match q.owner with
    | .fwd ro => s.gth.ro.find? fun y => y.id == ro
    | _ => none

/-- A contribution that passed every check (R226 to R236): GTH_ACK 28 clk after acceptance, exact in a locked slot (R107); a local
forward counts as acknowledged with it (R250). -/
def Sw.performGth (s : Sw) (p : Params) (e : GthEnt) (x : GthTarget) (c : Staged) : Sw :=
  let child := s.fwdOf e
  let res := match child with
    | some y => y.res
    | none => e.roRes
  let (s, closed) := s.contribute e.g x c.id c.acc c.gtime c.locked res (child.map (·.id))
  let s := if closed then s.onFlight c.id fun f => { f with ro := none } else s
  match e.fwd.bind fun i => s.gth.self.find? fun q => q.id == i with
  | some q => s.ownAnswer q .done
  | none => s.answer p { plainAns e.g.txn e.g.src 1 e.fwd (c.acc + 28) with flight := some c.id, exact := c.locked } rGTH_ACK stOK 0

/-- RES of a contribution (R215, R441): LINE_BUSY while its region is bound or unbound (R144, R186; log 98), GTH_BUSY during a
gather walk or a block reset of unit 6 or 7 (R257, R416). -/
def Sw.resGth (s : Sw) (p : Params) (ao : AlwaysOn) (c : Staged) (e : GthEnt) : Sw × Outc :=
  let g := e.g
  let line := s.map.index g.laddr
  let s := s.checkTags (setOf line)
  let reg := s.regionOf line
  if s.life.fatal.isSome then (s.answerGthDead p g e.fwd (max (s.fr.clk + 1) (c.acc + 28)), .error)
  else if reg.any fun x => x.2.ph != .bound then (s.refuseGth p e c.id c.acc rRETRY stLINE_BUSY, .retry)
  else if reg.any (fun x => s.gatherWalk x.1) || ao.held 6 || ao.held 7 then
    (s.refuseGth p e c.id c.acc rRETRY stGTH_BUSY, .retry)
  else match s.target line with
    | none => (s.refuseGth p e c.id c.acc rERROR stDECODE, .error)
    | some x =>
      if x.t.infmt.toNat == 7 && !fxPartOk x.t g then (s.refuseGth p e c.id c.acc rERROR stDECODE, .error)
      else (s.performGth p e x c, .done)

/-! ## IO accesses -/

/-- The operation that a sync-window access selects (R276). -/
def synOp (f : Io) (off : Nat) : Option SynOp :=
  if f.op == 0x01 && f.bytes == 8 && off % 8 == 0 then some .read
  else if f.op == 0x02 && f.bytes == 8 && off % 8 == 0 then some .signal
  else if f.op == 0x02 && f.bytes == 4 && off % 8 == 0 then some .reset
  else if f.op == 0x02 && f.bytes == 4 && off % 8 == 4 then some .arm
  else none

/-- One sync object. -/
def Sw.syncObj (s : Sw) (m : Nat) : SyncObj := sget SyncObj.zero s.syn.obj m

/-- A sync-window access at its acceptance (R21, R38, R206, R275, R276, R414): the status with which it is refused, or the operation
that it performs at c8 on an object (R278). -/
def Sw.syncCheck (s : Sw) (p : Params) (ao : AlwaysOn) (f : Io) (parErr : Bool) : BitVec 8 × Option (Nat × SynOp) :=
  let off := f.addr.toNat - p.syncBase.toNat
  if s.domainDown || ao.held 2 then (ioABORTED, none)
  else if f.op == 0x02 && parErr then (ioPARITY, none)
  else if !s.life.st.started then (ioDECODE, none)
  else match synOp f off with
    | none => (ioDECODE, none)
    | some op => if f.domain != (s.syncObj (off / 8)).owner then (ioACCESS, none) else (ioOK, some (off / 8, op))

/-- An IO access that is refused when it is accepted. -/
def Sw.refuseIo (s : Sw) (p : Params) (f : Io) (status : BitVec 8) : Sw × Option Outc :=
  (s.answerIo p f (s.fr.clk + 14) status 0 none, some .error)

/-- An IO access at its acceptance (R46, R350): the outcome of one that is refused now. Register-window accesses are queued to act,
sync-window accesses act at c8, aperture accesses go on to RES. -/
def Sw.accIo (s : Sw) (p : Params) (ao : AlwaysOn) (e : IoEnt) : Sw × Option Outc :=
  let f := e.f
  if f.crosses then s.refuseIo p f ioDECODE
  else if inRange f.addr p.regBase 65536 then
    let off := f.addr.toNat - p.regBase.toNat
    let st := winStatus p ao s f e.parErr off
    ((s.winAccept p f off st).reads p ao, if st == ioOK then none else some .error)
  else if inRange f.addr p.syncBase 131072 then
    match s.syncCheck p ao f e.parErr with
    | (_, some (m, op)) => (s.onPipe fun q => { q with syn := q.syn ++ [⟨s.fr.clk, f, m, op⟩] }, none)
    | (st, none) => s.refuseIo p f st
  else if aptRange p f then (s.onPin fun q => { q with aptOpen := q.aptOpen ++ [(f.src, s.fr.clk)] }, none)
  else s.refuseIo p f ioDECODE

/-- The status of an aperture access, and the region that holds its target line (R155). TARGET + o wraps at 2^52 (log 99). -/
def Sw.aptCheck (s : Sw) (p : Params) (f : Io) : BitVec 8 × Option (Region × Nat × Nat) :=
  let o := f.addr.toNat - p.aptBase.toNat
  let pa : BitVec 52 := BitVec.ofNat 52 (s.pin.aptTarget.toNat * 2 ^ 20 + o)
  if s.pin.aptSize.toNat * 2 ^ 20 ≤ o || !s.isHome p (laddrOf pa) then (ioDECODE, none)
  else
    let line := s.map.index (laddrOf pa)
    match s.regionOf line with
    | none => (ioDECODE, none)
    | some (_, g) =>
      if g.typ == 2 || g.ph != .bound then (ioDECODE, none)
      else if f.domain != g.owner then (ioACCESS, none)
      else (ioOK, some (g, line, pa.toNat % 128))

/-- The answer of an aperture access. -/
def Sw.answerApt (s : Sw) (p : Params) (f : Io) (x : Staged) (due : Nat) (status : BitVec 8) (pay : BitVec 512) : Sw :=
  (s.respond ⟨s.pipe.nextSeq, due, .io (ioAnswer p f status pay), some x.id, none, some (f.src, x.acc), false, 0, false, none⟩).onPipe
    fun q => { q with nextSeq := q.nextSeq + 1 }

/-- An aperture access that passed its checks is performed on the line (R155). -/
def Sw.performApt (s : Sw) (p : Params) (x : Staged) (f : Io) (g : Region) (line b : Nat) : Sw :=
  let n := f.bytes
  let loc := g.loc line
  let t := Txn.blank 256 x.id x.acc line .req { ownReq p 0 0 0 0 0 f.domain with src := f.src, priv := f.priv } x.alloc s.fr.frameNo
  let rank := if x.locked then 0 else 1
  let (s, cur) := s.rdLine t loc (x.acc + 12) rank
  if f.op == 0x01 then
    let (s, cur) := s.carry x.id cur
    let bad := (List.range n).any fun i => bitAt cur.poison ((b + i) / 16)
    s.answerApt p f x (x.acc + 44) (if bad then ioPARITY else ioOK) (BitVec.ofNat 512 (bytesN cur.data b n))
  else
    let d : Dat := { Dat.none with data := putBytes (0 : LineBits) b n (bytesN f.payload 0 n) }
    (s.wrLine t loc (mergeLine cur d b n) (x.acc + 20) rank (g.typ == 0)).answerApt p f x (x.acc + 24) ioOK 0

/-- RES of an aperture access (R21, R38, R155, R206, R414). -/
def Sw.resApt (s : Sw) (p : Params) (ao : AlwaysOn) (x : Staged) (e : IoEnt) : Sw × Outc :=
  let f := e.f
  let no (st : BitVec 8) : Sw × Outc := (s.answerApt p f x (x.acc + aptOffset f) st 0, .error)
  if s.domainDown || ao.held 7 then no ioABORTED
  else if f.op == 0x02 && e.parErr then no ioPARITY
  else match s.aptCheck p f with
    | (st, none) => no st
    | (_, some (g, line, b)) =>
      let s := s.checkTags (setOf line)
      if s.life.fatal.isSome then (s.answerStagedDead p x, .error) else (s.performApt p x f g line b, .done)

/-! ## The stages of the pipeline (R74) -/

/-- The request leaves its queue: an IO entry frees, and a contribution accepted directly from the input register has its credit
returned in the next clk (R37, R81). -/
def Sw.dequeue (s : Sw) (c : Cand) : Sw :=
  match c with
  | .req e => s.onQ fun q => { q with req := dropFirst (fun x => x.seq == e.seq) q.req }
  | .gth e =>
    let direct := s.q.direct.any fun x => x.seq == e.seq
    let s := s.onQ fun q => { q with
      gth := dropFirst (fun x => x.seq == e.seq) q.gth, direct := if direct then none else q.direct }
    if direct then s.owe .gth 1 else s
  | .io e => ((s.onQ fun q => { q with io := dropFirst (fun x => x.seq == e.seq) q.io }).owe .io 1).count 0 7 1 (some e.f.who)

/-- The gather adder is occupied from the acceptance of a contribution to a context (R217). -/
def Sw.occupyAdder (s : Sw) (p : Params) (g : Gth) : Sw :=
  if !s.isHome p g.laddr then s
  else match s.target (s.map.index g.laddr) with
    | some x => s.onPipe fun q => { q with adder := s.fr.clk + adderClks x.t }
    | none => s

/-- Acceptance in this clk: ACC (R74, R441). -/
def Sw.accept (s : Sw) (p : Params) (ao : AlwaysOn) (c : Cand) (locked : Bool) : Sw :=
  let (s, id) := (s.dequeue c).newFlight p c locked
  let (s, out) := match c with
    | .req e => s.accReq p e
    | .gth e => (s.occupyAdder p e.g).accGth p e id
    | .io e => s.accIo p ao e
  s.stage p c id locked out

/-- MAP of one accepted request. -/
def Sw.mapStage (s : Sw) (p : Params) (x : Staged) : Sw :=
  let (s, out) := match x.cand with
    | .req e => s.mapReq p e x.acc
    | .gth e => s.mapGth p e x.id x.acc
    | .io _ => (s, none)
  match out with
  | none => s
  | some o => (s.outcome x.acc x.cand o).onPipe fun q => { q with
      staged := updFirst (fun y => y.id == x.id) (fun y => { y with out := some o }) q.staged }

/-- RES of one accepted request that no earlier stage has answered. -/
def Sw.resStage (s : Sw) (p : Params) (ao : AlwaysOn) (x : Staged) : Sw × Outc :=
  match x.cand with
  | .req e => match kindOf e.r.op with
    | some k => s.resReq p ao x e k
    | none => (s, .done)
  | .gth e => s.resGth p ao x e
  | .io e => if e.f.toApt p then s.resApt p ao x e else (s, .done)

/-- One accepted request comes through RES: what it does, the class of its slot and its ACCEPT record. -/
def Sw.res (s : Sw) (p : Params) (ao : AlwaysOn) (x : Staged) : Sw :=
  let s := s.onPipe fun q => { q with staged := dropFirst (fun y => y.id == x.id) q.staged }
  match x.out with
  | some o => s.traceAccept x.cand x.gtime o
  | none =>
    let (s, o) := s.resStage p ao x
    (s.outcome x.acc x.cand o).traceAccept x.cand x.gtime o

/-- The requests that come to MAP and to RES in this clk, at most one each (R74). -/
def Sw.stages (s : Sw) (p : Params) (ao : AlwaysOn) : Sw :=
  let s := (s.pipe.staged.filter fun x => x.out.isNone && x.acc + 2 == s.fr.clk).foldl (fun s x => s.mapStage p x) s
  (s.pipe.staged.filter fun x => x.acc + 7 ≤ s.fr.clk).foldl (fun s x => s.res p ao x) s

end Sys2Proof.Machine
end

