-- ==== Sys2Proof/Machine/Slot.lean ====
section
/-! DEFINITION. SLOT_DECIDE: the decision of a slot, its class, background units, and the end of the clk (04, R93 to R101,
R217; 13, R317; 19, R433, R437). -/
namespace Sys2Proof.Machine

/-! ## Candidates (R93, R94, R96) -/

/-- Order of age (R96, R272): arrival clk, then the order REQ, GTH, IO, then flits before requests of the slice's own. Requests of one
channel with one arrival clk, which R96 does not foresee, go in queue order (log 100). -/
def Cand.age : Cand → Nat
  | .req e => e.arr * 8 + (if e.self.isSome then 1 else 0)
  | .gth e => e.arr * 8 + 2 + (if e.fwd.isSome then 1 else 0)
  | .io e => e.arr * 8 + 4

/-- Its deadline, when DL_VALID is kept (R302, R304). -/
def Cand.deadline : Cand → Option (BitVec 32)
  | .req e => if e.r.dlValid then some e.df else none
  | .gth e => if e.g.dlValid then some e.df else none
  | .io _ => none

/-- Every request that has arrived (R93); aperture accesses wait while APERTURE_SET runs (R156). -/
def Sw.eligible (s : Sw) (p : Params) : List Cand :=
  s.reqReady.map .req ++ s.gthReady.map .gth ++ (s.ioReady p).map .io

/-- Its admission is not barred in this clk (R206, R217, R426). -/
def Sw.admits (s : Sw) : Cand → Bool
  | .req _ => s.enabled
  | .gth _ => s.enabled && s.pipe.adder ≤ s.fr.clk
  | .io _ => true

/-- The oldest of some candidates. -/
def oldest (cs : List Cand) : Option Cand := minBy Cand.age cs

/-- A candidate is locked-only on its channel (R94); a dead or fenced slice serves IO in every slot (R21, R206). -/
def Sw.lockedCand (s : Sw) (c : Cand) : Bool := s.fr.lockedOnly c.cls c.chan && !s.domainDown

/-! ## The decision (R97) -/

/-- The tier that admitted a request. -/
inductive Tier3 where
  | locked | owned | deadline | minimum | bestEffort
  deriving DecidableEq, Repr

/-- What a slot does. -/
inductive Choice where
  | pick (c : Cand) (t : Tier3)
  | background
  | empty
  deriving DecidableEq, Repr

/-- Background work is pending (R100); none runs in a fenced slice (R21). -/
def Sw.bgPending (s : Sw) (ao : AlwaysOn) : Bool :=
  s.life.st != .fenced && (s.pmc.units < 12 || s.tel.units < 4 || s.walkPending
    || (s.arrayUp ao && (s.rep.calWork || s.rep.scrubWork)))

/-- The entry as it governs this slot: a slot that is not enabled, and every slot of a dead or fenced slice, acts as a free
one (R21, R206, R426). -/
def Sw.slotEntry (s : Sw) : BitVec 32 := if s.enabled then s.fr.entry s.fr.pos else 0

/-- Free-slot arbitration over the oldest candidate of each class (R97, R98). -/
def Sw.freeChoice (s : Sw) (bg : Bool) (free : List Cand) : Choice :=
  let best (c : Nat) : Option Cand := oldest (free.filter fun x => x.cls == c)
  let heads := (List.range 64).filterMap best
  match minBy (fun (x : Cand) => (x.deadline.getD 0).toNat) (heads.filter fun x => x.deadline.isSome) with
  | some x => .pick x .deadline
  | none =>
    match (firstCyclic s.fr.minPtr fun c => sget 0 s.fr.granted c < (s.cls c).minSlots && (best c).isSome).bind best with
    | some x => .pick x .minimum
    | none =>
      match (firstCyclic s.fr.bePtr fun c => (best c).isSome).bind best with
      | some x => .pick x .bestEffort
      | none => if bg then .background else .empty

/-- decide_slot of R97. -/
def Sw.choose (s : Sw) (p : Params) (ao : AlwaysOn) : Choice :=
  let e := s.slotEntry
  let bg := s.bgPending ao
  let can := (s.eligible p).filter s.admits
  let mine := oldest (can.filter fun x => x.cls == eClass e && x.chan == eChan e)
  let free := can.filter fun x => !s.lockedCand x
  if eValid e && eLock e then
    match mine with
    | some x => .pick x .locked
    | none => .empty
  else if eValid e && eChan e == 3 && bg then .background
  else if eValid e && eChan e != 3 then
    match mine with
    | some x => .pick x .owned
    | none => s.freeChoice bg free
  else s.freeChoice bg free

/-! ## Background units (R100) -/

/-- One unit of background work, by priority; the Bool says whether it made progress. -/
def Sw.background (s : Sw) (p : Params) (ao : AlwaysOn) : Sw × Bool :=
  if s.pmc.units < 12 then (s.pmcUnit, true)
  else if s.tel.units < 4 then (s.telUnit, true)
  else if s.walkPending then s.walkUnit p
  else if s.arrayUp ao && s.rep.calWork then (s.calUnit, true)
  else (s.scrubUnit, true)

/-! ## Slot classes (R433, R434) -/

/-- A request was eligible for the slot under R93 and R94, whatever barred its admission. -/
def Sw.wasEligible (s : Sw) (p : Params) : Bool :=
  let e := s.fr.entry s.fr.pos
  let names (x : Cand) : Bool := x.cls == eClass e && x.chan == eChan e
  (s.eligible p).any fun x =>
    if eValid e && eLock e then names x
    else !s.lockedCand x || (eValid e && eChan e != 3 && names x)

/-- The contribution that a locked GTH slot could not take because the adder is occupied (R217). -/
def Sw.adderLate (s : Sw) : Option GthEnt :=
  let e := s.fr.entry s.fr.pos
  if s.enabled && eValid e && eLock e && eChan e == 1 && s.fr.clk < s.pipe.adder then
    minBy (fun (x : GthEnt) => x.arr) (s.gthReady.filter fun x => x.g.qos.toNat == eClass e)
  else none

/-- A slot that admits nothing: its class, and LOCKED_LATE of a locked GTH slot that falls while the adder is occupied (R217). -/
def Sw.emptySlot (s : Sw) (p : Params) : Sw :=
  let s := match s.adderLate with
    | some x => (s.raise 5 x.g.qos.toNat).count 0 5 1 (some x.g.who)
    | none => s
  s.slotClass s.fr.clk (if s.wasEligible p then 3 else 2) none

/-! ## Admission (R99) -/

/-- The counts and pointers that an admission moves (R97, R99, R429). -/
def Sw.grant (s : Sw) (c : Cand) (t : Tier3) : Sw :=
  let k := c.cls
  let w := some c.who
  let s := s.onFr fun f => { f with granted := sset 0 f.granted k (sget 0 f.granted k + 1) }
  match t with
  | .locked => s.count 0 6 1 w
  | .owned => s
  | .deadline => s.count 7 4 1 w
  | .minimum => (s.onFr fun f => { f with minPtr := (k + 1) % 64 }).count 7 5 1 w
  | .bestEffort => (s.onFr fun f => { f with bePtr := (k + 1) % 64 }).count 7 6 1 w

/-- The deadline of a request has passed at its acceptance (R303, R317). -/
def Sw.deadlineMissed (s : Sw) (c : Cand) : Bool := c.deadline.any fun d => d.toNat < s.gUnits.toNat

/-- A DL record (R317, R318). -/
def Sw.recordDl (s : Sw) (c : Cand) : Sw :=
  ((s.onQos fun q => { q with missDl := q.missDl ||| (1#64 <<< c.cls), dlAt := some s.fr.clk }).countCls 7 2 c.cls).raise 6 0

/-- The slot admits a request. -/
def Sw.slotTake (s : Sw) (p : Params) (ao : AlwaysOn) (c : Cand) (t : Tier3) : Sw :=
  let s := s.grant c t
  let s := if s.deadlineMissed c then s.recordDl c else s
  s.accept p ao c (t == .locked)

/-! ## The end of the clk -/

/-- Answers that the slice gives to its own requests arrive (R272). -/
def Sw.deliverSelf (s : Sw) : Sw :=
  (s.pipe.rsp.filter fun r => r.lane.isNone && s.ready r).foldl (fun s r =>
    let s := (s.onPipe fun p => { p with rsp := dropFirst (fun x => x.seq == r.seq) p.rsp }).answered r
    match r.body with
    | .self id st retry line =>
      match s.gth.self.find? fun q => q.id == id with
      | none => s
      | some q => s.ownAnswer q (if retry then .retry else if st != stOK then .error st else match line with
          | some ln => .data ln
          | none => .done)
    | _ => s) s

/-- A CleanInvalidate of a KIND 1 line whose memory writes have completed (R145). -/
def Sw.cleansDone (s : Sw) (p : Params) : Sw :=
  let ends := s.pipe.cleans.filter fun c => (s.evCopies c.line).isEmpty
  (ends.foldl (fun s c =>
    s.answer p { plainAns c.r.txn c.r.src c.r.op c.self (max s.fr.clk (c.acc + 24)) with flight := some c.flight } rCOMP stOK 0) s).onPipe
    fun q => { q with cleans := q.cleans.filter fun c => !(ends.any fun e => e == c) }

/-- A READ of the sync window at the front acts at c8 (R276, R278). -/
def Sw.synReads (p : Params) : Nat → Sw → Sw
  | 0, s => s
  | n + 1, s =>
    match s.pipe.syn with
    | a :: l =>
      if a.op == .read && a.acc + 8 ≤ s.fr.clk then
        let v := (s.syncObj a.obj).counter
        let s := (s.onPipe fun q => { q with syn := l }).count 6 2 1 (some a.f.who)
        Sw.synReads p n (s.answerIo p a.f (a.acc + 14) ioOK (v.setWidth 512) none)
      else s
    | [] => s

/-- A record is dropped (R60, R437). -/
def Trc.drop (t : Trc) (r : BitVec 128) : Trc :=
  { t with lostG := if t.lost == 0 then fld r 4 48 else t.lostG, lost := t.lost + 1, dropped := t.dropped + 1 }

/-- A record enters the trace buffer, or is dropped (R60, R437). -/
def Trc.put (t : Trc) (r : BitVec 128) : Trc := if t.buf.length < 16 then { t with buf := t.buf ++ [r] } else t.drop r

/-- A loss marker goes ahead of the first record that finds an entry free after a drop, and raises TRACE_LOSS in that clk (R437). -/
def Sw.lossMarker (s : Sw) : Sw :=
  if s.trc.lost != 0 && s.trc.buf.length < 16 && !s.trc.fresh.isEmpty then
    let n := min 65535 s.trc.lost
    (s.onTrc fun t => { t with
      buf := t.buf ++ [BitVec.ofNat 128 ((t.lostG.toNat <<< 4) ||| (n <<< 52))], lost := 0 }).raise 21 n
  else s

/-- The records of a clk enter the buffer in ascending TYPE (R437). -/
def Sw.bufferTrace (s : Sw) : Sw :=
  let s := s.lossMarker
  s.onTrc fun t =>
    ((List.range 7).flatMap fun ty => t.fresh.filter fun r => fldN r 0 4 == ty).foldl Trc.put { t with fresh := [] }

/-- Per-clk counts of the memory port and of the response channels (R429). -/
def Sw.perClk (s : Sw) : Sw :=
  let s := if !(s.mp.wait.isEmpty && s.mp.presented.isNone) && s.mp.rb < 128 then s.count 8 4 1 none else s
  let s := s.count 8 7 s.mp.out.length none
  let waits (l : Lane) : Bool := !s.hasOut l && s.pipe.rsp.any fun r => r.lane == some l && s.ready r
  if waits .rsp || waits .dat then s.count 9 5 1 none else s

/-- What the event unit does at the end of a clk: the occurrences of the clk act, the winners are known, and what applies from the next
clk follows (R367, R370, R374, R375). -/
def Sw.endEvents (s : Sw) : Sw := s.onEvt fun v => (v.endClk.track s.fr.clk).newClk

/-- A flight that nothing refers to any more. -/
def Sw.finished (s : Sw) (f : Flight) : Bool :=
  f.acc + f.delay + 44 < s.fr.clk
    && !(s.pipe.acc.any fun a => a.flight == some f.id || a.ord == f.id || a.finder == some f.id)
    && !(s.pipe.flights.any fun g => g.deps.any fun d => d.1 == f.id)
    && !(s.pipe.wr.any fun w => w.flight == some f.id)
    && !(s.pipe.rsp.any fun r => r.flight == some f.id)
    && !(s.pipe.cleans.any fun c => c.flight == f.id)
    && !(s.home.txns.any fun t => t.seq == f.id)
    && !(s.cache.evWait.any fun e => e.flight == some f.id)

/-- ky_link_up rises in the clk after the switched region has left reset, or has its supply back; from the clk after on the eight
initial IO credits return, one for each clk (R32, R35, R36). -/
def Port.rise (p : Port) (clk : Nat) : Port :=
  if p.linkUp || p.isolate == .full then p
  else { p with linkUp := true, crdDue := p.crdDue ++ (List.range 8).map fun i => (Lane.io, clk + 1 + i) }

/-- What leaves the output registers at the end of a clk, and the next clk's credits and budgets (R33, R309). -/
def Sw.nextClk (s : Sw) : Sw :=
  let s := s.onFr fun f => { f with clk := f.clk + 1 }
  let s := s.onPort fun p =>
    { p with ioOut := none, rspOut := none, datOut := none, snpOut := none, gthOut := none, reqOut := none }.pulse s.fr.clk |>.rise s.fr.clk
  let s := s.onMp fun m => { m with
    wrPin := [], rdPin := none, rb := min 256 (m.rb + issueLimit m.level), wb := min 256 (m.wb + issueLimit m.level) }
  ((s.onPmc fun p => { p with now := [], wrapped := [] }).onArr fun a => { a with found := [] }).onLife fun l =>
    { l with domClr := none }

/-- Lines in flight whose AWR has passed (R79). -/
def Sw.dropUses (s : Sw) : Sw := s.onPipe fun q => { q with uses := q.uses.filter fun u => s.fr.clk ≤ u.upd + 3 }

/-- What a new clk brings by itself: the stages MAP and RES (R74), commits (R76), base-array accesses, closes at HDR, answers to
the slice's own requests, image accesses, queue entries that have come free, the last conditions of transactions, and window reads
that come to the front. -/
def Sw.clkBegin (s : Sw) (p : Params) (ao : AlwaysOn) : Sw :=
  let s := (s.stages p ao).dropUses.commitDue.baseAccesses.closesSaid
  let s := if s.domainDown then s.deliverSelf else (s.deliverSelf.walkPump p).pumpSelf p
  let s := Sw.fillReq p s.q.reqReg.length s
  let s := (((s.cleansDone p).memWrDone p).closeDone).freeReadouts
  let s := (Sw.synReads p s.pipe.syn.length s).reads p ao
  s.onPipe fun q => { q with flights := q.flights.filter fun f => !s.finished f }

/-- The frame position moves; after its last slot the frame has ended (R85, R89). -/
def Sw.nextPos (s : Sw) (p : Params) : Sw :=
  if s.fr.pos + 1 ≥ s.fr.len then s.frameEnd p s.fr.len s.fr.clk false
  else s.onFr fun f => { f with pos := f.pos + 1 }

/-- A contribution held for direct acceptance that its slot did not take enters the ingress buffer, or is refused (R95). -/
def Sw.placeDirect (s : Sw) (p : Params) : Sw :=
  match s.q.direct with
  | none => s
  | some e =>
    let s := s.onQ fun q => { q with direct := none }
    match takeEntry (s.fr.lockedOnly e.g.qos.toNat 1) (s.ingUsed true) (s.ingUsed false) 16 48 with
    | some ing => (s.onQ fun q => { q with gth := q.gth ++ [{ e with ingRes := ing }] }).owe .gth 1
    | none => s.gthRefused p e.g rRETRY stGTH_BUSY

/-- What the slot of this clk does (R97 to R101). -/
def Sw.decide (s : Sw) (p : Params) (ao : AlwaysOn) : Sw :=
  match s.choose p ao with
  | .pick c t => s.slotTake p ao c t
  | .background =>
    let (s, progress) := (s.onFr fun f => { f with now := { f.now with bg := f.now.bg + 1 } }).count 0 4 1 none |>.background p ao
    s.slotClass s.fr.clk (if progress then 0 else 1) none
  | .empty => s.emptySlot p

/-- A rising edge of sclk, of which each clk has one (R406). -/
def SclkMon.edge (m : SclkMon) : SclkMon := { m with edges := m.edges + 1 }

/-- SLOT_DECIDE on the two regions: the slice's own requests enter, a frame boundary that is due acts, the slot is decided, and the
late decisions of the clk follow (R120). It ends the clk (log 1): events and counts act, a fatal cause found in the clk takes
effect (R205, R206), and the next clk begins. -/
def Sw.slot (s : Sw) (p : Params) (ao : AlwaysOn) : AlwaysOn × Sw :=
  let s := (s.enterOwn.boundary.decide p ao).placeDirect p
  let s := (s.lateDecisions p s.home.txns.length).perClk
  let (ao, s) := s.settle p ao
  let s := ((s.nextPos p).bufferTrace.endEvents).nextClk
  ({ ao with counted := [], sclk := ao.sclk.edge }, s.clkBegin p ao)

/-- While a reset holds the switched region a clk only passes: the clk count is the model's own (log 104). The sclk monitor goes on. -/
def State.holdClk (s : State) : State :=
  let s := s.onAo fun a => { a with sclk := a.sclk.edge }
  if s.ao.hold.isSome then s.onSw fun w => w.onFr fun f => { f with clk := f.clk + 1 } else s

/-- SLOT_DECIDE. -/
def execSlotDecide (s : State) : Host.Outcome State Fault Refusal :=
  .next (if s.awake then s.runAo fun p ao sw => sw.slot p ao else s.holdClk)

end Sys2Proof.Machine
end

