-- ==== Sys2Proof/Machine/Sync.lean ====
section
/-! DEFINITION. Sync objects and notifies: the window operations, firing, internal signals, the notify queue
(11, R274 to R282; 09, R239). -/
namespace Sys2Proof.Machine

/-! ## Operations on an object (R277) -/

/-- COUNTER has reached THR (R277). -/
def SyncObj.reached (o : SyncObj) : Bool := (o.counter - o.thr).toNat < 2 ^ 63

/-- The object fires (R277). -/
def SyncObj.fire (o : SyncObj) : SyncObj := { o with armed := false, pend := o.pend || o.nkind != 0 }

/-- The object fires under the check that follows every operation (R277). -/
def SyncObj.fires (o : SyncObj) : Bool := o.armed && o.reached

/-- SIGNAL with increment `i`. -/
def SyncObj.signal (o : SyncObj) (i : BitVec 64) : SyncObj := { o with counter := o.counter + i }

/-- RESET. -/
def SyncObj.reset (o : SyncObj) : SyncObj := { o with counter := 0, thr := 0, armed := false, pend := false }

/-- ARM with arming word `w`. -/
def SyncObj.arm (o : SyncObj) (w : BitVec 32) : SyncObj :=
  let t : BitVec 64 := (fld w 0 31).setWidth 64
  if t = 0 then { o with armed := false }
  else { o with thr := (if bitAt w 31 then o.thr else o.counter) + t, armed := true }

/-- Perform an operation on object `m` for the access `w`, with the firing check and its counts (R277, R281, R429, R430). -/
def Sw.operate (s : Sw) (m : Nat) (f : SyncObj → SyncObj) (w : Option Who) : Sw :=
  let o := f (s.syncObj m)
  let o' := if o.fires then o.fire else o
  let s := if o.fires then s.count 6 4 1 w else s
  let s := if o.fires && o.pend && o.nkind != 0 then s.count 6 6 1 w else s
  s.onSyn fun y => { y with obj := sset SyncObj.zero y.obj m o' }

/-! ## Window operations (R276, R278) -/

/-- A sync-window row: the access at the front acts at c8 when it is of this operation, and answers at c14 at the earliest. -/
def Sw.syncAct (s : Sw) (p : Params) (op : SynOp) (f : Io → SyncObj → SyncObj) (counter : Nat) : Sw :=
  match s.pipe.syn with
  | [] => s
  | a :: l =>
    if a.op == op && a.acc + 8 ≤ s.fr.clk then
      let w := some a.f.who
      let s := (s.onPipe fun q => { q with syn := l }).operate a.obj (f a.f) w
      let s := if counter < 8 then s.count 6 counter 1 w else s
      let s := s.answerIo p a.f (max s.fr.clk (a.acc + 14)) ioOK 0 none
      Sw.synReads p l.length s
    else s

/-- SYNC_SIGNAL. -/
def execSyncSignal (s : State) : Host.Outcome State Fault Refusal :=
  .next (s.run fun p _ sw => sw.syncAct p .signal (fun f o => o.signal (BitVec.ofNat 64 (bytesN f.payload 0 8))) 0)

/-- SYNC_RESET. -/
def execSyncReset (s : State) : Host.Outcome State Fault Refusal :=
  .next (s.run fun p _ sw => sw.syncAct p .reset (fun _ o => o.reset) 8)

/-- SYNC_ARM. -/
def execSyncArm (s : State) : Host.Outcome State Fault Refusal :=
  .next (s.run fun p _ sw => sw.syncAct p .arm (fun f o => o.arm (BitVec.ofNat 32 (bytesN f.payload 0 4))) 3)

/-! ## Internal signals (R239, R278) -/

/-- A window access acts on the object in this clk, and so ahead of an internal signal (R278). -/
def Sw.windowFirst (s : Sw) (m : Nat) : Bool :=
  match s.pipe.syn with
  | a :: _ => a.obj == m && a.acc + 8 ≤ s.fr.clk
  | [] => false

/-- INTERNAL_SIGNAL on the switched region: the oldest close, once its outputs have completed, signals its object (R239). -/
def Sw.internalSignal (s : Sw) : Sw :=
  if s.domainDown || s.fr.clk < s.gth.sigAt then s
  else match s.gth.ro with
  | [] => s
  | e :: l =>
    let m := fldN e.t.sync 0 14
    if e.planned && e.issuedAll && e.open_ == 0 && bitAt e.t.sync 14 && !s.windowFirst m then
      let s := s.onGth fun g => { g with ro := l, sigAt := s.fr.clk + 1 }
      (s.operate m (fun o => o.signal 1) none).count 6 1 1 none
    else s

/-- INTERNAL_SIGNAL. -/
def execInternalSignal (s : State) : Host.Outcome State Fault Refusal := .next (s.run fun _ _ sw => sw.internalSignal)

/-! ## Notifies (R280, R281) -/

/-- NOTIFY_ENQUEUE on the switched region: the lowest object with PEND takes a free entry, one in a clk (R281). -/
def Sw.notifyEnqueue (s : Sw) : Sw :=
  if s.domainDown || s.fr.clk < s.syn.enqAt || s.syn.nq.length ≥ 64 then s
  else match s.syn.obj.find? fun e => e.2.pend with
  | none => s
  | some (m, o) =>
    s.onSyn fun y => { y with
      obj := sset SyncObj.zero y.obj m { o with pend := false }
      nq := y.nq ++ [⟨y.nextOrd, m, o.thr, false, s.fr.frameNo⟩]
      nextOrd := y.nextOrd + 1
      enqAt := s.fr.clk + 1 }

/-- NOTIFY_ENQUEUE. -/
def execNotifyEnqueue (s : State) : Host.Outcome State Fault Refusal := .next (s.run fun _ _ sw => sw.notifyEnqueue)

/-- The 16-B notify payload (R280). -/
def notifyPayload (p : Params) (n : Notify) : Nat :=
  n.thr.toNat + n.obj * 2 ^ 64 + p.sliceIndex.toNat * 2 ^ 80

/-- The IO write of a notify of kind 1 (R280). -/
def notifyIo (p : Params) (n : Notify) (o : SyncObj) : Io :=
  ⟨0x03, 0, p.sliceRid, o.naddr, 15, 3, o.owner, 0, BitVec.ofNat 512 (notifyPayload p n)⟩

/-- The request of a notify of kind 2 or 3 (R280). -/
def notifyReq (p : Params) (id : Nat) (n : Notify) (o : SyncObj) : SelfReq :=
  let add := o.nkind == 3
  let r := ownReq p (if add then 0x80 else 0x63) id o.naddr (if add then 3 else 4) o.nclass o.owner
  let b := o.naddr.toNat % 128
  let data : LineBits := putBytes 0 b (if add then 8 else 16) (if add then 1 else notifyPayload p n)
  ⟨id, .notify n.ord, r, some (ownDat p r data 0), none, .toSend⟩

/-- The slice sends an IO flit of its own on ky_io_out, if one can leave now (R281, R370). -/
def Sw.sendIo (s : Sw) (m : Io) : Option Sw :=
  if s.port.free .io && s.hasOut .io && !s.fastWaits then
    some (((s.spendOut .io).onPort fun q => { q with ioOut := some (ioFlit m) }).sent 1 none)
  else none

/-- NOTIFY_SEND on the switched region: the oldest notify that has not left leaves, if it can (R280, R281). -/
def Sw.notifySend (s : Sw) (p : Params) : Sw :=
  if s.domainDown then s
  else match s.syn.nq.find? fun n => !n.sent with
  | none => s
  | some n =>
    let o := s.syncObj n.obj
    if o.nkind.toNat ≤ 1 then
      match s.sendIo (notifyIo p n o) with
      | none => s
      | some s => (s.onSyn fun y => { y with nq := dropFirst (fun x => x.ord == n.ord) y.nq }).count 6 5 1 none
    else
      let q := notifyReq p s.freeSelf n o
      match (s.addSelf q).dispatch p q with
      | none => s
      | some s =>
        (s.onSyn fun y => { y with nq := updFirst (fun x => x.ord == n.ord) (fun x => { x with sent := true }) y.nq }).count
          6 5 1 (some q.r.who)

/-- NOTIFY_SEND. -/
def execNotifySend (s : State) : Host.Outcome State Fault Refusal := .next (s.run fun p _ sw => sw.notifySend p)

end Sys2Proof.Machine
end

