-- ==== Sys2Proof/Machine/Mailbox.lean ====
section
/-! DEFINITION. The mailbox protocol: the CRC, responses, the command table, checks 2 to 7 of a command, its completion, the
frame of every command row, and the fence (14, R325 to R338, R444; 01, R18, R21). -/
namespace Sys2Proof.Machine

/-! ## Buffers (R326) -/

/-- One byte of the reflected CRC-32 (R326). -/
def crcByte (crc b : Nat) : Nat :=
  (List.range 8).foldl (fun c _ => if c % 2 == 1 then (c / 2) ^^^ 0xEDB88320 else c / 2) (crc ^^^ b)

/-- CRC-32 of IEEE 802.3 (R326). -/
def crc32 (bytes : List Nat) : Nat := (bytes.foldl crcByte 0xFFFFFFFF) ^^^ 0xFFFFFFFF

/-- CRC of a buffer: bytes 0 to 11 + min(LEN, 52), bytes 8 to 11 taken as 0 (R326). -/
def bufCrc (b : BitVec 512) : Nat :=
  crc32 ((List.range (12 + min (byteN b 2) 52)).map fun i => if 8 ≤ i && i < 12 then 0 else byteN b i)

/-- A response: status, LEN of its payload, and the payload as a little-endian number (R326). -/
structure Reply where
  status : BitVec 8
  len : Nat
  data : Nat
  deriving DecidableEq, Repr

/-- Status codes of R336. -/
def cOK : BitVec 8 := 0x00
def cWRONG_STATE : BitVec 8 := 0x01
def cBAD_PARAM : BitVec 8 := 0x02
def cBAD_TABLE : BitVec 8 := 0x03
def cOVER_COMMIT : BitVec 8 := 0x04
def cBAD_OPCODE : BitVec 8 := 0x05
def cBAD_LENGTH : BitVec 8 := 0x06
def cDENIED : BitVec 8 := 0x07
def cTORN_COMMAND : BitVec 8 := 0x08
def cSTALE_EPOCH : BitVec 8 := 0x09
def cRECEIVER_RESET : BitVec 8 := 0x0A
def cFENCED : BitVec 8 := 0x0B
def cREPAIR_EXHAUSTED : BitVec 8 := 0x0C
def cBAD_IMAGE : BitVec 8 := 0x0D
def cAUTH_FAIL : BitVec 8 := 0x0E
def cIMAGE_ERROR : BitVec 8 := 0x0F

/-- Fields of a payload: first byte, bytes, value. -/
def payload (fs : List (Nat × Nat × Nat)) : Nat :=
  fs.foldl (fun n f => n ||| ((f.2.2 % 2 ^ (8 * f.2.1)) <<< (8 * f.1))) 0

/-- The response buffer (R326). -/
def responseBuf (op tag seq : BitVec 16) (r : Reply) : BitVec 512 :=
  let b : BitVec 512 := BitVec.ofNat 512 (op.toNat ||| ((r.len % 256) <<< 16) ||| (r.status.toNat <<< 24)
    ||| (tag.toNat <<< 32) ||| (seq.toNat <<< 48) ||| ((r.data % 2 ^ (8 * r.len)) <<< 96))
  b ||| (BitVec.ofNat 512 (bufCrc b) <<< 64)

/-! ## Completion (R327, R367) -/

/-- Complete the command of a channel: response, CODE and STATE, event MBX_DONE, and the LEHR counters. -/
def Sw.finishAs (s : Sw) (n : BitVec 2) (op tag : BitVec 16) (r : Reply) : Sw :=
  let seq := (s.mbx.ch n).seq
  let s := s.onCh n fun c => { c with
    rsp := responseBuf op tag seq r, st := .done, code := r.status, run := none, rereads := 0, rereadAt := none }
  (s.raise (25 + n.toNat) seq.toNat).count 10 (if r.status == cOK then 1 else 2) 1 none

/-- Complete the command that a channel runs. -/
def Sw.finish (s : Sw) (n : BitVec 2) (r : Reply) : Sw :=
  match (s.mbx.ch n).run with
  | some c => s.finishAs n c.op c.tag r
  | none => s

/-! ## The command table (R334, R335, R337) -/

/-- Groups of R334. -/
inductive CmdGroup where
  | none | lifecycle | walk | admission
  deriving DecidableEq, Repr

/-- One row of R337: payload length, response length, the states that accept it as bits 2^code, channel 0 only, group. -/
structure CmdRow where
  op : Nat
  len : Nat
  rsp : Nat
  states : Nat
  ch0 : Bool
  group : CmdGroup
  deriving DecidableEq, Repr

/-- The commands of R337. States: BOOT 1, SAFE 2, CONFIG 4, RUNNING 8, QUIESCING 16, QUIESCED 32, FENCED 64. -/
def cmdRows : List CmdRow := [
  ⟨0x0001, 0, 44, 127, false, .none⟩, ⟨0x0002, 4, 0, 36, false, .lifecycle⟩, ⟨0x0003, 0, 0, 8, false, .lifecycle⟩,
  ⟨0x0004, 4, 0, 60, false, .lifecycle⟩, ⟨0x0005, 4, 0, 124, false, .lifecycle⟩, ⟨0x0010, 52, 4, 36, false, .lifecycle⟩,
  ⟨0x0020, 52, 4, 60, false, .walk⟩, ⟨0x0021, 24, 12, 56, false, .walk⟩, ⟨0x0022, 4, 4, 56, false, .walk⟩,
  ⟨0x0023, 12, 0, 60, false, .none⟩, ⟨0x0030, 52, 4, 60, false, .none⟩, ⟨0x0031, 12, 4, 60, false, .admission⟩,
  ⟨0x0032, 4, 0, 36, false, .admission⟩, ⟨0x0040, 8, 4, 60, false, .admission⟩, ⟨0x0041, 4, 4, 60, false, .admission⟩,
  ⟨0x0050, 52, 4, 56, false, .none⟩, ⟨0x0051, 20, 4, 56, false, .walk⟩, ⟨0x0052, 20, 4, 56, false, .walk⟩,
  ⟨0x0053, 4, 4, 56, false, .walk⟩, ⟨0x0060, 20, 0, 60, false, .none⟩, ⟨0x0070, 20, 4, 60, false, .walk⟩,
  ⟨0x0080, 4, 4, 60, true, .none⟩, ⟨0x0081, 0, 36, 124, false, .none⟩, ⟨0x0082, 8, 12, 60, true, .walk⟩,
  ⟨0x0090, 4, 28, 124, false, .none⟩, ⟨0x00F0, 0, 20, 127, false, .none⟩, ⟨0x00F8, 4, 0, 3, true, .none⟩,
  ⟨0x00F9, 52, 0, 3, true, .none⟩, ⟨0x00FA, 0, 0, 3, true, .none⟩]

/-- The row of an opcode. -/
def cmdRow (op : Nat) : Option CmdRow := cmdRows.find? fun r => r.op == op

/-- Response LEN that R337 lists. -/
def rspLen (op : Nat) : Nat := ((cmdRow op).map (·.rsp)).getD 0

/-- Failure of a command's own check: the listed LEN with the fields given, the others 0 (R444). -/
def failWith (op : Nat) (st : BitVec 8) (fs : List (Nat × Nat × Nat)) : Reply := ⟨st, rspLen op, payload fs⟩

/-- Failure that reports nothing. -/
def fail (op : Nat) (st : BitVec 8) : Reply := ⟨st, rspLen op, 0⟩

/-- OK with the fields given. -/
def okWith (op : Nat) (fs : List (Nat × Nat × Nat)) : Reply := ⟨cOK, rspLen op, payload fs⟩

/-! ## Check 6 (R18, R329, R334) -/

/-- The state that INTERLEAVE_SET requires (R18). -/
def Sw.mapFree (s : Sw) : Bool :=
  s.arr.tags.all (fun e => !tValid e.2) && s.cache.ev.isEmpty && s.cache.evWait.isEmpty && s.cache.side.isEmpty
    && s.pin.regions.isEmpty && s.gth.armed.isEmpty && s.home.txns.isEmpty
    && s.arr.dir.all fun e => !dUsed e.2

/-- A long command of the same group is running (R334): SLICE_QUIESCE, or a walk. -/
def Sw.conflicts (s : Sw) : CmdGroup → Bool
  | .lifecycle => s.life.quiescing.isSome
  | .walk => s.walk.isSome
  | .admission => false
  | .none => false

/-- Check 6 passes: the state, the group, the fuse timeout (R386) and R18. -/
def Sw.stateOk (s : Sw) (r : CmdRow) : Bool :=
  (r.states >>> s.life.st.code) % 2 == 1 && !s.conflicts r.group
    && !(s.life.st == .safe && s.life.safeCause == 2 && r.ch0)
    && (r.op != 0x0010 || s.mapFree)

/-! ## Check 7: reserved bytes and ranges (R329, R337) -/

section
variable (d : BitVec 416)

/-- A byte range of the payload is 0. -/
def zeroAt (b n : Nat) : Bool := bytesN d b n == 0

/-- REACH and UNIT of SLICE_RESET (R343). -/
def okReset : Bool := byteN d 0 ≤ 2 && byteN d 1 ≤ 7 && (byteN d 0 == 2 || byteN d 1 == 0)

/-- INTERLEAVE_SET (R341). -/
def okInterleave : Bool :=
  let n := byteN d 2
  bytesN d 0 2 ≤ 1023 && n ≤ 48 && byteN d 3 ≤ 3 && (n ≥ 1 || byteN d 3 % 2 == 1) && (List.range n).all fun i => byteN d (4 + i) < 128

/-- PART_SET (R342). -/
def okPart : Bool :=
  let sel := byteN d 0
  sel < 8 && zeroAt d 1 1 && zeroAt d 11 1
    && (sel % 2 == 1 || zeroAt d 2 2)
    && (if (sel / 2) % 2 == 1 then byteN d 4 ≤ 15 && byteN d 5 ≤ 3 else zeroAt d 4 4)
    && (if sel / 4 == 1 then
          bytesN d 8 2 ≤ 4095 && 1 ≤ byteN d 10 && byteN d 10 ≤ 80
        else zeroAt d 8 3 && zeroAt d 12 40)

/-- PIN_BIND (R139). -/
def okBind : Bool :=
  byteN d 0 ≤ 63 && byteN d 1 ≤ 3 && zeroAt d 3 1 && zeroAt d 6 2 && bytesN d 8 8 < 2 ^ 52 && bytesN d 16 8 < 2 ^ 35

/-- A region number and three bytes of 0. -/
def okRegion : Bool := byteN d 0 ≤ 63 && zeroAt d 1 3

/-- APERTURE_SET (R154). -/
def okAperture : Bool :=
  bytesN d 0 8 < 2 ^ 52 && bytesN d 0 8 % 2 ^ 20 == 0 && byteN d 8 ≤ 64 && zeroAt d 9 3

/-- STAKE_LOAD (R344). -/
def okLoad : Bool :=
  let n := bytesN d 4 2
  let fill := byteN d 1 == 1
  let used := if fill then 1 else n
  byteN d 0 ≤ 1 && byteN d 1 ≤ 1 && bytesN d 2 2 ≤ 8191 && 1 ≤ n && n ≤ (if fill then 8192 else 11) && zeroAt d 6 2
    && zeroAt d (8 + 4 * used) (44 - 4 * used)

/-- FRAME_SET (R346). -/
def okFrame : Bool :=
  let n := bytesN d 0 2
  n % 8 == 0 && 512 ≤ n && n ≤ 8192 && zeroAt d 2 2

/-- QOS_ADMIT (R300, R313), at a frame of `len` clk. -/
def okAdmit (len : Nat) : Bool :=
  byteN d 0 ≤ 63 && byteN d 1 ≤ 1 && bytesN d 2 2 ≤ len && bytesN d 4 2 ≤ 4096 && byteN d 6 ≤ 16
    && byteN d 6 ≤ byteN d 7 && 1 ≤ byteN d 7 && byteN d 7 ≤ 128

/-- A 16-bit field holds a sign-extended value from -256 to 255 (R345). -/
def anchorOk (b : Nat) : Bool := let v := sextN 16 (bytesN d b 2); -256 ≤ v && v ≤ 255

/-- GATHER_REGION (R210, R345). -/
def okTemplate : Bool :=
  byteN d 0 ≤ 63 && byteN d 1 ≤ 3 && byteN d 2 ≤ 1 && byteN d 3 ≤ 7 && byteN d 4 ≤ 3 && byteN d 5 ≤ 15
    && anchorOk d 6 && anchorOk d 8 && bytesN d 10 2 < 2 ^ 15 && bytesN d 12 4 < 2 ^ 17 && byteN d 16 ≤ 1
    && byteN d 17 ≤ 15 && byteN d 18 ≤ 63 && zeroAt d 19 1 && bytesN d 20 8 < 2 ^ 52 && bytesN d 32 8 < 2 ^ 40
    && bytesN d 40 8 < 2 ^ 52

/-- GATHER_SAVE and GATHER_RESTORE (R337, R258, R261): IMAGE is a line address, and M is at least 1. -/
def okImage (restore : Bool) : Bool :=
  byteN d 0 ≤ 63 && (if restore then zeroAt d 1 1 && zeroAt d 8 4 else byteN d 1 ≤ 1 && 1 ≤ bytesN d 8 4) && byteN d 2 ≤ 63 && zeroAt d 3 1
    && bytesN d 12 8 < 2 ^ 52 && bytesN d 12 8 % 128 == 0

/-- SYNC_CONFIG (R279). -/
def okSync : Bool :=
  bytesN d 0 2 < 2 ^ 14 && bytesN d 2 2 < 2 ^ 15 && byteN d 5 ≤ 3 && byteN d 6 ≤ 63 && zeroAt d 7 1 && bytesN d 8 8 < 2 ^ 52

/-- FLUSH (R130). -/
def okFlush : Bool :=
  byteN d 0 ≤ 2 && byteN d 1 ≤ 1 && zeroAt d 2 2 && bytesN d 4 8 < 2 ^ 52 && bytesN d 4 8 % 128 == 0

/-- SCRUB_CFG (R337, R401). -/
def okScrub : Bool := byteN d 0 ≤ 3 && 1 ≤ byteN d 1 && byteN d 1 ≤ 32

/-- REPAIR_APPLY (R392). -/
def okRepair : Bool :=
  byteN d 0 ≤ 3 && byteN d 1 ≤ 15 && byteN d 2 ≤ 31 && byteN d 3 ≤ 1
    && bytesN d 4 2 ≤ (if byteN d 3 == 0 then 511 else 35) && zeroAt d 6 2

/-- Fields and reserved bytes of the payload of an opcode. -/
def fieldsOk (op len : Nat) : Bool :=
  match op with
  | 0x0002 => zeroAt d 3 1
  | 0x0004 => zeroAt d 2 2
  | 0x0005 => okReset d
  | 0x0010 => okInterleave d
  | 0x0020 => okPart d
  | 0x0021 => okBind d
  | 0x0022 => okRegion d
  | 0x0023 => okAperture d
  | 0x0030 => okLoad d
  | 0x0031 => byteN d 0 ≤ 1 && zeroAt d 1 3
  | 0x0032 => okFrame d
  | 0x0040 => okAdmit d len
  | 0x0041 => okRegion d
  | 0x0050 => okTemplate d
  | 0x0051 => okImage d false
  | 0x0052 => okImage d true
  | 0x0053 => okRegion d
  | 0x0060 => okSync d
  | 0x0070 => okFlush d
  | 0x0080 => okScrub d
  | 0x0082 => okRepair d
  | 0x0090 => byteN d 0 ≤ 3 && zeroAt d 1 3
  | 0x00F9 => bytesN d 0 4 % 4 == 0
  | _ => true

end

/-- Checks 6 and 7 of a command whose row is known: the status of the first that fails. -/
def Sw.checkState (s : Sw) (r : CmdRow) (d : BitVec 416) : Option (BitVec 8) :=
  if !s.stateOk r then some (if s.life.st == .fenced then cFENCED else cWRONG_STATE)
  else if !fieldsOk d r.op s.fr.len then some cBAD_PARAM
  else none

/-- Another channel runs a command of the group, a short one included (R314, R334; log 101). -/
def Sw.otherRuns (s : Sw) (n : BitVec 2) (g : CmdGroup) : Bool :=
  g != .none && ([0, 1, 2, 3] : List (BitVec 2)).any fun k => k != n && (s.mbx.ch k).run.any fun c =>
    (cmdRow c.op.toNat).any fun r => r.group == g

/-- Checks 2 to 7 of the buffer of a channel in order: the status of the first that fails (R329). -/
def Sw.checkBuf (s : Sw) (ao : AlwaysOn) (n : BitVec 2) (b : BitVec 512) : Option (BitVec 8) :=
  if fld b 32 16 != ao.hostEpoch.getD n.toNat 0 then some cSTALE_EPOCH
  else match cmdRow (bytesN b 0 2) with
    | none => some cBAD_OPCODE
    | some r =>
      if byteN b 2 != r.len then some cBAD_LENGTH
      else if r.ch0 && n != 0 then some cDENIED
      else if !s.stateOk r || s.otherRuns n r.group then some (if s.life.st == .fenced then cFENCED else cWRONG_STATE)
      else if byteN b 3 != 0 || bytesN b (12 + r.len) (52 - r.len) != 0 then some cBAD_PARAM
      else s.checkState r (fld b 96 416)

/-! ## A command row (R329) -/

/-- The mailbox command that a channel runs takes its one final step: its checks 6 to 8 hold still, and it has its effect.
`act` answers none when the command runs on, or has completed itself. -/
def State.command (s : State) (n : BitVec 2) (op : Nat) (check : Params → AlwaysOn → Sw → BitVec 416 → Option Reply)
    (act : Params → AlwaysOn → Sw → BitVec 416 → AlwaysOn × Sw × Option Reply) : State :=
  s.runAo fun p ao sw =>
    match (sw.mbx.ch n).run, cmdRow op with
    | some c, some r =>
      if c.op.toNat != op || c.started || !sw.life.lehrUp then (ao, sw)
      else match sw.checkState r c.pay with
        | some st => (ao, sw.finish n ⟨st, 0, 0⟩)
        | none =>
          match check p ao sw c.pay with
          | some rep => (ao, sw.finish n rep)
          | none =>
            let (ao, sw, rep) := act p ao sw c.pay
            match rep with
            | some rep => (ao, sw.finish n rep)
            | none => (ao, sw.onCh n fun x => { x with run := x.run.map fun y => { y with started := true } })
    | _, _ => (ao, sw)

/-- A command without checks of its own beyond 1 to 7. -/
def noCheck (_ : Params) (_ : AlwaysOn) (_ : Sw) (_ : BitVec 416) : Option Reply := none

/-! ## The fence (R21) -/

/-- What becomes of a waiting response when the slice fences: only answers to IO accesses stay, those of the aperture and of the sync
window as ABORTED. -/
def Resp.fenced (r : Resp) (p : Params) : Option Resp :=
  match r.body with
  | .io m => some (if r.windowed p then { r with body := .io { m with status := ioABORTED, payload := 0 } } else r)
  | _ => none

/-- An accepted request that a fence cuts off: an aperture access is answered ABORTED, another request is abandoned (R21). -/
def Sw.fenceStaged (s : Sw) (p : Params) (x : Staged) : Sw :=
  (match x.cand with
    | .io _ => s.answerStagedDead p x
    | _ => s).endStaged x

/-- The slice fences: its open transactions and queues are abandoned, no array write commits, and IO stays in service. -/
def Sw.fence (s : Sw) (p : Params) : Sw :=
  let quiescing := s.life.quiescing
  let s := s.onPipe fun q => { q with rsp := q.rsp.filterMap fun r => r.fenced p }
  let s := (s.pipe.staged.filter fun x => x.open_ p).foldl (fun s x => s.fenceStaged p x) s
  let s := s.pipe.syn.foldl (fun s a => s.answerIo p a.f (max s.fr.clk (a.acc + 14)) ioABORTED 0 none) s
  let s := s.holdWalk.cancelWrites.onPipe fun q => { q with syn := [], cleans := [] }
  let s := s.onLife fun l => { l with st := .fenced, drain := none, quiescing := none }
  let s := s.onPort fun o => { o with
    isolate := .fence
    crdDue := o.crdDue.filter fun e => e.1 == .io, crdPin := o.crdPin.filter fun e => e == .io }
  let s := s.onQ fun q => { q with req := [], reqReg := [], gth := [], direct := none, datWait := [], datDrop := [] }
  let s := s.onHome fun h => { h with txns := [] }
  let s := s.onMp fun m => { m with wait := [], presented := none }
  match quiescing with
  | some n => s.finish n ⟨cFENCED, 0, 0⟩
  | none => s

end Sys2Proof.Machine
end

