-- ==== Sys2Proof/Machine/Commands.lean ====
section
/-! DEFINITION. Mailbox commands without a walk: lifecycle, map, aperture, Stake tables, frame, QoS, gather templates, sync
objects, scrub, reports (14, R337 to R349; 04, R86, R101 to R103; 13, R313 to R315; 09, R211, R212; 11, R279). -/
namespace Sys2Proof.Machine

/-! ## SLICE_INFO (R347) -/

/-- A bitmap over the regions. -/
def regionBits (f : Nat → Bool) : Nat := (List.range 64).foldl (fun n r => if f r then n + 2 ^ r else n) 0

/-- Byte 7 of SLICE_INFO. -/
def infoFlags (ao : AlwaysOn) (s : Sw) : Nat :=
  s.map.committed.toNat + ao.dom.dead.toNat * 2 + s.fr.tickLost.toNat * 4 + s.fr.switch.isSome.toNat * 8 + s.fr.active.num * 16

/-- The SLICE_INFO payload; in BOOT and SAFE only SLICE_INDEX, STATE and SLICE_RID are reported (R337). -/
def infoFields (p : Params) (ao : AlwaysOn) (s : Sw) : List (Nat × Nat × Nat) :=
  let id := [(0, 1, p.sliceIndex.toNat), (1, 1, s.life.st.code), (14, 2, p.sliceRid.toNat)]
  if s.life.st == .boot || s.life.st == .safe then id
  else
    id ++ [(2, 2, s.fr.len), (4, 2, s.life.agents), (6, 1, s.life.snpExp), (7, 1, infoFlags ao s), (8, 2, s.map.k),
      (10, 2, s.cache.waySet.toNat), (12, 2, s.heldWays.toNat),
      (16, 8, regionBits fun r => (s.region r).any fun g => g.ph != .binding), (24, 8, regionBits fun r => (s.template r).isSome)]
    ++ match s.walk with
      | some w => [(32, 2, w.op.toNat), (36, 4, w.units), (40, 4, w.total + w.extra)]
      | none => []

/-- SLICE_INFO. -/
def execSliceInfo (ch : BitVec 2) (s : State) : Host.Outcome State Fault Refusal :=
  .next (s.command ch 0x0001 noCheck fun p ao sw _ => (ao, sw, some (okWith 0x0001 (infoFields p ao sw))))

/-! ## Lifecycle (R339, R340, R343, R424) -/

/-- Own checks of SLICE_START (R339, R424). -/
def checkStart (_ : Params) (ao : AlwaysOn) (s : Sw) (d : BitVec 416) : Option Reply :=
  let a := bytesN d 0 2
  let e := byteN d 2
  let bad := if s.life.st == .config then a < 1 || a > 1024 || e < 12 || e > 24 else a != s.life.agents || e != s.life.snpExp
  if bad then some (fail 0x0002 cBAD_PARAM)
  else if !s.map.committed || s.life.sweep.isSome || ao.tiers.any (fun t => t.st != .on) then some (fail 0x0002 cWRONG_STATE)
  else none

/-- The initial credits of REQ, RSP, DAT and GTH, one for each clk and channel from the next clk on, once since
ky_link_up rose (R32, R36). -/
def Port.giveCredits (o : Port) (now : Nat) : Port :=
  if o.crdGiven then o
  else
    let run (l : Lane) (n : Nat) : List (Lane × Nat) := (List.range n).map fun i => (l, now + 1 + i)
    { o with crdGiven := true, crdDue := o.crdDue ++ run .rsp 16 ++ run .dat 32 ++ run .gth 8 ++ run .req 16 }

/-- SLICE_START takes effect; from CONFIG on the forward-progress monitor begins to watch (R408). -/
def Sw.start (s : Sw) (d : BitVec 416) : Sw :=
  ((s.onLife fun l => { l with
    st := .running, agents := bytesN d 0 2, snpExp := byteN d 2
    watch := if l.st == .config then s.fr.frameNo else l.watch }).onPort
    fun o => o.giveCredits s.fr.clk).onFr fun f => { f with tickFrom := some f.clk }

/-- SLICE_START. -/
def execSliceStart (ch : BitVec 2) (s : State) : Host.Outcome State Fault Refusal :=
  .next (s.command ch 0x0002 checkStart fun _ ao sw d => (ao, sw.start d, some (okWith 0x0002 [])))

/-- SLICE_QUIESCE. -/
def execSliceQuiesce (ch : BitVec 2) (s : State) : Host.Outcome State Fault Refusal :=
  .next (s.command ch 0x0003 noCheck fun _ ao sw _ =>
    (ao, sw.onLife fun l => { l with st := .quiescing, quiescing := some ch }, none))

/-- Everything that R340 names is empty, no walk runs and no object has PEND. -/
def Sw.quiet (s : Sw) : Bool :=
  s.q.req.isEmpty && s.q.io.isEmpty && s.q.gth.isEmpty && s.home.txns.isEmpty && s.gth.ro.isEmpty && s.syn.nq.isEmpty
    && s.cache.ev.isEmpty && s.walk.all (·.held) && s.syn.obj.all fun e => !e.2.pend

/-- QUIESCE_DONE (R340): the command completes and a held walk starts. -/
def execQuiesceDone (s : State) : Host.Outcome State Fault Refusal :=
  .next (s.run fun _ _ sw =>
    match sw.life.quiescing with
    | some n =>
      if sw.quiet then
        ((sw.onLife fun l => { l with st := .quiesced, quiescing := none }).onWalk fun w => w.map fun w => { w with held := false }).finish
          n (okWith 0x0003 [])
      else sw
    | none => sw)

/-- KEY of SLICE_FENCE (R343). -/
def checkFence (_ : Params) (_ : AlwaysOn) (_ : Sw) (d : BitVec 416) : Option Reply :=
  if bytesN d 0 2 != 0xF3A5 then some (fail 0x0004 cBAD_PARAM) else none

/-- SLICE_FENCE: its OK response, then the fence. -/
def execSliceFence (ch : BitVec 2) (s : State) : Host.Outcome State Fault Refusal :=
  .next (s.command ch 0x0004 checkFence fun p ao sw _ => (ao, (sw.finish ch (okWith 0x0004 [])).fence p, none))

/-- KEY and state checks of SLICE_RESET (R343). -/
def checkReset (_ : Params) (_ : AlwaysOn) (s : Sw) (d : BitVec 416) : Option Reply :=
  if bytesN d 2 2 != 0x5A3C then some (fail 0x0005 cBAD_PARAM)
  else if byteN d 0 == 2 && byteN d 1 ≥ 6 && s.life.st != .quiesced then some (fail 0x0005 cWRONG_STATE)
  else none

/-- SLICE_RESET: its OK response; the reset is raised 2 µs later. -/
def execSliceReset (ch : BitVec 2) (s : State) : Host.Outcome State Fault Refusal :=
  .next (s.command ch 0x0005 checkReset fun p ao sw d =>
    ({ ao with swReset := ao.swReset ++ [⟨5, fld d 0 2, fld d 8 3, ao.refClk + usRef p 2⟩] }, sw, some (okWith 0x0005 [])))

/-! ## INTERLEAVE_SET (R341) -/

/-- The staging map after the entries of a command. -/
def MapSt.staged (m : MapSt) (d : BitVec 416) : MapSt :=
  let m := if byteN d 3 / 2 == 1 then { m with marks := [] } else m
  (List.range (byteN d 2)).foldl (fun m i =>
    let g := bytesN d 0 2 + i
    { m with
      staging := sset 0 m.staging g (BitVec.ofNat 7 (byteN d (4 + i)))
      marks := if m.marks.contains g then m.marks else insNat g m.marks }) m

/-- The checks of COMMIT. -/
def MapSt.commitOk (m : MapSt) (p : Params) : Bool :=
  m.marks.length == 1024 && (List.range 1024).any fun g => sget 0 m.staging g == p.sliceIndex

/-- k as a response reports it: 0 when no map has been committed. -/
def MapSt.kShown (m : MapSt) : Nat := if m.committed then m.k else 0

/-- FIRST + COUNT, and COMMIT: a failing command reports MARKED as before and K of the active map (R341, R444). -/
def checkInterleave (p : Params) (_ : AlwaysOn) (s : Sw) (d : BitVec 416) : Option Reply :=
  if bytesN d 0 2 + byteN d 2 > 1024 || (byteN d 3 % 2 == 1 && !(s.map.staged d).commitOk p) then
    some (failWith 0x0010 cBAD_PARAM [(0, 2, s.map.marks.length), (2, 2, s.map.kShown)])
  else none

/-- The map after an accepted INTERLEAVE_SET. -/
def MapSt.apply (m : MapSt) (p : Params) (d : BitVec 416) : MapSt :=
  let m := m.staged d
  if byteN d 3 % 2 == 1 then
    { m with committed := true, active := m.staging, mine := (List.range 1024).filter fun g => sget 0 m.staging g == p.sliceIndex }
  else m

/-- INTERLEAVE_SET. -/
def execInterleaveSet (ch : BitVec 2) (s : State) : Host.Outcome State Fault Refusal :=
  .next (s.command ch 0x0010 checkInterleave fun p ao sw d =>
    let m := sw.map.apply p d
    (ao, { sw with map := m }, some (okWith 0x0010 [(0, 2, m.marks.length), (2, 2, m.kShown)])))

/-! ## The aperture (R154, R156) -/

/-- APERTURE_SET. -/
def execApertureSet (ch : BitVec 2) (s : State) : Host.Outcome State Fault Refusal :=
  .next (s.command ch 0x0023 noCheck fun _ ao sw d =>
    (ao, sw.onPin fun q => { q with aptNext := q.aptNext ++ [(ch, fld d 20 32, fld d 64 7)] }, none))

/-- APERTURE_APPLY (R156): no accepted aperture access awaits its response. -/
def execApertureApply (s : State) : Host.Outcome State Fault Refusal :=
  .next (s.run fun _ _ sw =>
    match sw.pin.aptNext with
    | (n, t, z) :: l =>
      if sw.pin.aptOpen.isEmpty then
        (sw.onPin fun q => { q with aptTarget := t, aptSize := z, aptNext := l }).finish n (okWith 0x0023 [])
      else sw
    | [] => sw)

/-! ## Stake copies and the frame (R86, R101 to R103, R315, R346) -/

/-- The copy that COPY names. -/
def copyOf (n : Nat) : Copy := if n = 0 then .a else .b

/-- Replace one copy. -/
def Frame.setCopy (f : Frame) (c : Copy) (t : Sparse (BitVec 32)) : Frame :=
  match c with
  | .a => { f with copyA := t }
  | .b => { f with copyB := t }

/-- The entries of STAKE_LOAD in order (R344). -/
def loadEntries (d : BitVec 416) : List (BitVec 32) :=
  (List.range (bytesN d 4 2)).map fun i => fld d (64 + 32 * (if byteN d 1 == 1 then 0 else i)) 32

/-- FIRST + COUNT (R344), then R102. -/
def checkLoad (_ : Params) (_ : AlwaysOn) (s : Sw) (d : BitVec 416) : Option Reply :=
  let c := copyOf (byteN d 0)
  if bytesN d 2 2 + bytesN d 4 2 > 8192 then some (fail 0x0030 cBAD_PARAM)
  else if c == s.fr.active || s.fr.switch.any (fun w => w.dest == c) then some (fail 0x0030 cWRONG_STATE)
  else if !(loadEntries d).all entryOk then some (fail 0x0030 cBAD_TABLE)
  else none

/-- A copy after STAKE_LOAD. -/
def loaded (t : Sparse (BitVec 32)) (first : Nat) (es : List (BitVec 32)) : Sparse (BitVec 32) :=
  es.zipIdx.foldl (fun t e => sset 0 t (first + e.2) e.1) t

/-- STAKE_LOAD. -/
def execStakeLoad (ch : BitVec 2) (s : State) : Host.Outcome State Fault Refusal :=
  .next (s.command ch 0x0030 checkLoad fun _ ao sw d =>
    let c := copyOf (byteN d 0)
    (ao, sw.onFr fun f => f.setCopy c (loaded (f.copy c) (bytesN d 2 2) (loadEntries d)),
      some (okWith 0x0030 [(0, 2, bytesN d 4 2)])))

/-- The class parameters admitted so far, those that apply at the next boundary included (R313). -/
def Qos.admitted (q : Qos) : Qos := { q with cls := q.next.foldl (fun m e => sset ClassPar.default m e.1 e.2) q.cls, next := [] }

/-- Slots that locked entries and minimums may take together (R313). -/
def slotLimit (len : Nat) : Nat := 9 * len / 10

/-- R103 with R101 and R315. -/
def checkSwitch (_ : Params) (_ : AlwaysOn) (s : Sw) (d : BitVec 416) : Option Reply :=
  let c := copyOf (byteN d 0)
  let t := s.fr.copy c
  if s.fr.switch.isSome || c == s.fr.active then some (fail 0x0031 cWRONG_STATE)
  else if bgCount t s.fr.len < 16 || lockedCount t s.fr.len + s.qos.admitted.sumSlots > slotLimit s.fr.len then
    some (fail 0x0031 cBAD_TABLE)
  else none

/-- STAKE_SWITCH arms the switch. -/
def execStakeSwitch (ch : BitVec 2) (s : State) : Host.Outcome State Fault Refusal :=
  .next (s.command ch 0x0031 checkSwitch fun _ ao sw d =>
    let c := copyOf (byteN d 0)
    let t := sw.fr.copy c
    (ao, sw.onFr fun f => { f with switch := some ⟨c, fld d 32 64, 0⟩ },
      some (okWith 0x0031 [(0, 2, lockedCount t sw.fr.len), (2, 2, bgCount t sw.fr.len)])))

/-- lk of R313 at a frame length: the larger of the active copy's locked entries and those of a copy to be switched to. -/
def Frame.lk (f : Frame) (len : Nat) : Nat :=
  max (lockedCount (f.copy f.active) len) (match f.switch with
    | some w => lockedCount (f.copy w.dest) len
    | none => 0)

/-- R86, R315, R346. -/
def checkFrame (_ : Params) (_ : AlwaysOn) (s : Sw) (d : BitVec 416) : Option Reply :=
  let n := bytesN d 0 2
  let busy := s.life.st == .quiesced && !(s.q.req.isEmpty && s.q.reqReg.isEmpty && s.q.io.isEmpty && s.q.gth.isEmpty)
  let q := s.qos.admitted
  if busy then some (fail 0x0032 cWRONG_STATE)
  else if s.fr.everSwitched && bgCount (s.fr.copy s.fr.active) n < 16 then some (fail 0x0032 cBAD_TABLE)
  else if s.fr.lk n + q.sumSlots > slotLimit n || q.sumMiss > capLines s.mp.level n then some (fail 0x0032 cOVER_COMMIT)
  else none

/-- FRAME_SET: the length changes at the next frame boundary. -/
def execFrameSet (ch : BitVec 2) (s : State) : Host.Outcome State Fault Refusal :=
  .next (s.command ch 0x0032 checkFrame fun _ ao sw d =>
    (ao, sw.onFr fun f => { f with lenNext := some (bytesN d 0 2) }, some (okWith 0x0032 [])))

/-! ## Admission (R313, R314) -/

/-- The class parameters that QOS_ADMIT carries. -/
def admitPar (d : BitVec 416) : ClassPar := ⟨bytesN d 2 2, bytesN d 4 2, byteN d 6, byteN d 7, byteN d 1 == 1⟩

/-- The admitted set with one class replaced. -/
def Qos.withClass (q : Qos) (c : Nat) (v : ClassPar) : Qos := { q with next := q.next ++ [(c, v)] }

/-- A sum passes its limit, or the command does not raise it (R313). -/
def sumOk (new old limit : Nat) : Bool := new ≤ limit || new ≤ old

/-- The slots, memory and queue checks of R313. -/
def checkAdmit (_ : Params) (_ : AlwaysOn) (s : Sw) (d : BitVec 416) : Option Reply :=
  let old := s.qos.admitted
  let new := (s.qos.withClass (byteN d 0) (admitPar d)).admitted
  let lk := s.fr.lk s.fr.len
  if sumOk (lk + new.sumSlots) (lk + old.sumSlots) (slotLimit s.fr.len)
      && sumOk new.sumMiss old.sumMiss (capLines s.mp.level s.fr.len) && sumOk new.sumRsv old.sumRsv 64 then none
  else some (fail 0x0040 cOVER_COMMIT)

/-- SLOTS and LINES as HST_QOS_COMMIT will read (R318). -/
def commitFields (s : Sw) (q : Qos) : List (Nat × Nat × Nat) :=
  [(0, 2, lockedCount (s.fr.copy s.fr.active) s.fr.len + q.admitted.sumSlots), (2, 2, q.admitted.sumMiss)]

/-- QOS_ADMIT. -/
def execQosAdmit (ch : BitVec 2) (s : State) : Host.Outcome State Fault Refusal :=
  .next (s.command ch 0x0040 checkAdmit fun _ ao sw d =>
    let q := sw.qos.withClass (byteN d 0) (admitPar d)
    (ao, { sw with qos := q }, some (okWith 0x0040 (commitFields sw q))))

/-- QOS_RELEASE. -/
def execQosRelease (ch : BitVec 2) (s : State) : Host.Outcome State Fault Refusal :=
  .next (s.command ch 0x0041 noCheck fun _ ao sw d =>
    let q := sw.qos.withClass (byteN d 0) ClassPar.default
    (ao, { sw with qos := q }, some (okWith 0x0041 (commitFields sw q))))

/-! ## Gather templates (R210 to R212) -/

/-- The template that a payload carries (R345). -/
def templateOf (d : BitVec 416) : Template :=
  { mode := fld d 8 2, opt := bitAt d 16, infmt := fld d 24 3, elems := fld d 32 2, outfmt := fld d 40 4
    anchor := sextN 16 (bytesN d 6 2), sqanchor := sextN 16 (bytesN d 8 2), expect := bytesN d 12 4
    fwd := bitAt d 128, fwdCidx := fld d 136 4, resultClass := fld d 144 6, resultBase := fld d 160 52
    resultStride := bytesN d 28 4, resultSliceStride := bytesN d 32 8, statusBase := fld d 320 52
    statusSliceStride := bytesN d 48 4, sync := fld d 80 15 }

/-- MODE, OPT, INFMT, ELEMS and OUTFMT form a row of R211, and EXPECT is in its limit. -/
def Template.rowOk (t : Template) : Bool :=
  let i := t.infmt.toNat
  let e := t.elems.toNat
  let o := t.outfmt.toNat
  match t.mode.toNat with
  | 0 =>
    ((e == 0 && (o == 3 || o == 5 || o == 6)) || (e == 1 && (o == 0 || o == 4 || o == 6))
      || (e == 2 && i != 0 && i != 6 && (o == 1 || o == 2 || o == 6)))
      && (!(o == 4 || o == 5) || t.opt) && t.expect ≤ 131071
  | 1 => !t.opt && i ≤ 4 && e == 1 && o ≤ 2 && t.expect ≤ 15
  | 2 => (i == 5 || i == 6) && e == 1 && o == 7 && t.expect ≤ 131071
  | _ => e == 1 && ((i ≤ 4 && o == 0) || ((i == 5 || i == 6) && o == 7)) && t.expect ≤ 131071

/-- Alignment that R237 asks of results. -/
def Template.resultAlign (t : Template) : Nat := if t.mode == 1 && (t.outfmt == 1 || t.outfmt == 2) then 64 else 128

/-- The checks of R211. -/
def Template.ok (t : Template) : Bool :=
  let a := t.resultAlign
  t.rowOk && (!t.sumsq || (2 * t.anchor - 63 ≤ t.sqanchor && t.sqanchor ≤ 2 * t.anchor - 31))
    && !(t.outfmt == 6 && !t.fwd)
    && t.resultBase.toNat % a == 0 && t.resultStride % a == 0 && t.resultSliceStride % a == 0
    && t.statusBase.toNat % 16 == 0 && t.statusSliceStride % 16 == 0

/-- A region is bound with TYPE 2. -/
def Sw.boundGather (s : Sw) (r : Nat) : Bool := (s.region r).any fun g => g.ph == .bound && g.typ == 2

/-- R212, then R211. -/
def checkTemplate (_ : Params) (_ : AlwaysOn) (s : Sw) (d : BitVec 416) : Option Reply :=
  let r := byteN d 0
  if !s.boundGather r || sget 0 s.gth.armed r != 0 then some (fail 0x0050 cWRONG_STATE)
  else if !(templateOf d).ok then some (fail 0x0050 cBAD_PARAM)
  else none

/-- GATHER_REGION. -/
def execGatherRegion (ch : BitVec 2) (s : State) : Host.Outcome State Fault Refusal :=
  .next (s.command ch 0x0050 checkTemplate fun _ ao sw d =>
    (ao, sw.onGth fun g => { g with tmplNext := g.tmplNext ++ [(ch, byteN d 0, templateOf d)] }, none))

/-- TEMPLATE_APPLY (R212): the first waiting template whose region has no contribution between ACC and HDR. -/
def execTemplateApply (s : State) : Host.Outcome State Fault Refusal :=
  .next (s.run fun _ _ sw =>
    match sw.gth.tmplNext.find? fun e => !sw.contribInFlight e.2.1 with
    | some (n, r, t) =>
      let sw := sw.onGth fun g => { g with tmplNext := dropFirst (fun e => e.1 == n) g.tmplNext }
      if sw.boundGather r then
        (sw.onGth fun g => { g with tmpl := sput g.tmpl r t }).finish n (okWith 0x0050 [(0, 4, ctxCount (sw.regOf r) t)])
      else sw.finish n (fail 0x0050 cWRONG_STATE)
    | none => sw)

/-! ## SYNC_CONFIG (R279) -/

/-- Objects of the range. -/
def syncRange (d : BitVec 416) : List Nat := (List.range (bytesN d 2 2)).map fun j => bytesN d 0 2 + j

/-- The checks of R279. -/
def checkSync (_ : Params) (_ : AlwaysOn) (s : Sw) (d : BitVec 416) : Option Reply :=
  let first := bytesN d 0 2
  let n := bytesN d 2 2
  let stride := bytesN d 16 4
  let align := match byteN d 5 with
    | 0 => 1
    | 3 => 8
    | _ => 16
  let base := bytesN d 8 8
  let inRange (m : Nat) : Bool := first ≤ m && m < first + n
  if n == 0 || first + n > 16384 || base % align != 0 || (n > 1 && stride % align != 0) || base + (n - 1) * stride ≥ 2 ^ 52 then
    some (fail 0x0060 cBAD_PARAM)
  else if s.syn.obj.any (fun e => inRange e.1 && (e.2.armed || e.2.pend)) || s.syn.nq.any (fun e => inRange e.obj) then
    some (fail 0x0060 cWRONG_STATE)
  else none

/-- One object after SYNC_CONFIG: COUNTER, THR and ARMED stay. -/
def SyncObj.config (o : SyncObj) (d : BitVec 416) (j : Nat) : SyncObj :=
  { o with owner := fld d 32 8, nkind := fld d 40 2, nclass := fld d 48 6, naddr := BitVec.ofNat 52 (bytesN d 8 8 + j * bytesN d 16 4) }

/-- SYNC_CONFIG. -/
def execSyncConfig (ch : BitVec 2) (s : State) : Host.Outcome State Fault Refusal :=
  .next (s.command ch 0x0060 checkSync fun _ ao sw d =>
    (ao, sw.onSyn fun y => { y with obj := (List.range (bytesN d 2 2)).foldl (fun m j =>
        let k := bytesN d 0 2 + j
        sset SyncObj.zero m k ((sget SyncObj.zero m k).config d j)) y.obj },
      some (okWith 0x0060 [])))

/-! ## SCRUB_CFG, REPAIR_STATUS, TELEM_READ (R348, R349, R391, R401) -/

/-- Marver after SCRUB_CFG: a scrub that is enabled again begins a new lap. -/
def Rep.config (r : Rep) (d : BitVec 416) : Rep :=
  let on := bitAt d 0
  { r with
    scrubEn := on, calEn := bitAt d 1, calStep := byteN d 1, maxUnits := bytesN d 2 2
    unit := if on && !r.scrubEn then 0 else r.unit }

/-- SCRUB_CFG. -/
def execScrubCfg (ch : BitVec 2) (s : State) : Host.Outcome State Fault Refusal :=
  .next (s.command ch 0x0080 noCheck fun _ ao sw d =>
    (ao, sw.onRep fun r => r.config d, some (okWith 0x0080 [(0, 4, sw.tel.live.lap.toNat)])))

/-- A place in the same subarray. -/
def Place.sameSub (a b : Place) : Bool := a.tier == b.tier && a.bank == b.bank && a.sub == b.sub

/-- The spare that serves a mapped place, named as the list of bad spares names one. -/
def spareOf (e : Place × Nat) : Place := { e.1 with index := e.2 }

/-- Spares of a tier and kind that are neither in use nor marked bad: 8 rows or 4 column groups in each of 512 subarrays. -/
def Rep.freeSpares (r : Rep) (tier kind : Nat) : Nat :=
  (if kind == 0 then 4096 else 2048)
    - (((r.map.map spareOf ++ r.bad).filter fun p => p.tier == tier && p.kind == kind).eraseDups).length

/-- Locations that the retirement list covers, each once (R395). -/
def Rep.retiredCount (r : Rep) : Nat := ((r.retired.flatMap fun p => (List.range p.size).map p.loc).eraseDups).length

/-- Fault reported last: the oldest entry, or the entry removed most recently (R391). -/
def Rep.lastFault (r : Rep) : Option Place :=
  match r.log with
  | e :: _ => some e.1
  | [] => r.lastRemoved

/-- The REPAIR_STATUS payload (R348). -/
def repairFields (r : Rep) : List (Nat × Nat × Nat) :=
  (List.range 4).map (fun t => (2 * t, 2, r.freeSpares t 0)) ++ (List.range 4).map (fun t => (8 + 2 * t, 2, r.freeSpares t 1))
    ++ [(16, 4, r.retiredCount), (20, 4, r.applied.toNat), (24, 1, (!r.retired.isEmpty).toNat), (25, 1, r.log.length)]
    ++ match r.lastFault with
      | some p => [(28, 1, p.tier), (29, 1, p.bank), (30, 1, p.sub), (31, 1, p.kind), (32, 2, p.index)]
      | none => []

/-- REPAIR_STATUS. -/
def execRepairStatus (ch : BitVec 2) (s : State) : Host.Outcome State Fault Refusal :=
  .next (s.command ch 0x0081 noCheck fun _ ao sw _ => (ao, sw, some (okWith 0x0081 (repairFields sw.rep))))

/-- The TELEM_READ payload: the telemetry registers (R349, R363). -/
def telemFields (t : Tel) (sel : Nat) : List (Nat × Nat × Nat) :=
  let r := t.regs
  (0, 8, t.gtime.toNat) :: match sel with
    | 0 => (List.range 10).map fun i => (8 + 2 * i, 2, (r.temp.getD i 0).toNat)
    | 1 => (List.range 5).map fun i => (8 + 4 * i, 4, (r.droop.getD i 0).toNat)
    | 2 => [(8, 4, r.corr.toNat), (12, 4, r.uncorr.toNat), (16, 4, r.metaErr.toNat), (20, 4, r.parity.toNat)]
    | _ => [(8, 4, r.lap.toNat), (12, 4, r.lines.toNat), (16, 4, r.cals.toNat), (20, 8, r.calPend.toNat)]

/-- TELEM_READ. -/
def execTelemRead (ch : BitVec 2) (s : State) : Host.Outcome State Fault Refusal :=
  .next (s.command ch 0x0090 noCheck fun _ ao sw d => (ao, sw, some (okWith 0x0090 (telemFields sw.tel (byteN d 0)))))

end Sys2Proof.Machine
end

