-- ==== Sys2Proof/Machine/WalkCommands.lean ====
section
/-! DEFINITION. Mailbox commands that start a walk, and the end of a walk (05, R130 to R132; 06, R135 to R151; 10, R256 to
R261; 14, R338, R342; 17, R392 to R396). -/
namespace Sys2Proof.Machine

/-- A walk that begins: held when it is taken in QUIESCING (R340). -/
def Sw.beginWalk (s : Sw) (ch : BitVec 2) (op : Nat) (kind : WalkKind) (total m c : Nat) (evs : List Nat) : Sw :=
  s.onWalk fun _ => some
    { kind := kind, op := BitVec.ofNat 16 op, ch := some ch, held := s.life.st == .quiescing, started := false, cur := 0, pass := 0
      units := 0, total := total, count := 0, evs := evs, img := [], m := m, c := c, failed := false, status := cOK, startGtime := 0
      todo := [], again := false, extra := 0 }

/-! ## PART_SET (R114, R116, R135 to R137, R342) -/

/-- The cache-way set as the next boundary leaves it. -/
def Cache.setAhead (c : Cache) : BitVec 16 := c.waySetNext.getD c.waySet

/-- The way set that a PART_SET asks for. -/
def partSet (c : Cache) (d : BitVec 416) : BitVec 16 := if bitAt d 0 then fld d 16 16 else c.setAhead

/-- The group change that a PART_SET carries. -/
def partGroups (d : BitVec 416) : List (Nat × Group) := if bitAt d 1 then [(byteN d 4, ⟨fld d 48 16, fld d 40 2⟩)] else []

/-- The requester entries that a PART_SET carries. -/
def partRt (d : BitVec 416) : List (Nat × BitVec 4) :=
  if bitAt d 2 then (List.range (byteN d 10)).map fun i => (bytesN d 8 2 + i, fld d (96 + 4 * i) 4) else []

/-- RT_FIRST + RT_COUNT (R342), then R114 and R137. -/
def checkPart (_ : Params) (_ : AlwaysOn) (s : Sw) (d : BitVec 416) : Option Reply :=
  if (bitAt d 2 && bytesN d 8 2 + byteN d 10 > 4096) || (bitAt d 1 && byteN d 5 == 3) || (bitAt d 0 && (fld d 16 16 &&& s.heldWays) != 0) then some (fail 0x0020 cBAD_PARAM)
  else none

/-- Way-set, group and requester changes that the next frame boundary applies (R116, R135, R137). -/
def Cache.later (c : Cache) (set : BitVec 16) (groups : List (Nat × Group)) (rt : List (Nat × BitVec 4)) : Cache :=
  { c with waySetNext := some set, groupsNext := c.groupsNext ++ groups, rtNext := c.rtNext ++ rt }

/-- PART_SET. -/
def execPartSet (ch : BitVec 2) (s : State) : Host.Outcome State Fault Refusal :=
  .next (s.command ch 0x0020 checkPart fun _ ao sw d =>
    let new := partSet sw.cache d
    let out := sw.cache.setAhead &&& ~~~new
    if out == 0 then
      (ao, sw.onCache fun c => c.later new (partGroups d) (partRt d), some (okWith 0x0020 [(0, 2, new.toNat)]))
    else
      (ao, (sw.onCache fun c => { c with waySetNext := some (c.setAhead &&& new) }).beginWalk ch 0x0020
        (.part out new (partGroups d) (partRt d)) (65536 * (waysOf out).length) 0 0 [], none))

/-! ## PIN_BIND and PIN_UNBIND (R139 to R143, R150, R151) -/

/-- The region that a PIN_BIND describes (R141). -/
def bindRegion (s : Sw) (d : BitVec 416) : Region :=
  let base : BitVec 52 := fld d 64 52
  let size := bytesN d 16 8
  ⟨fld d 8 2, fld d 16 8, base, size, fld d 32 16, (base.toNat / 2 ^ 17) * s.map.k, size * s.map.k, .binding⟩

/-- W of R141. -/
def Region.w (r : Region) : Nat := (r.n + 65535) / 65536

/-- Local indices of the region whose location is retired (R140). -/
def Sw.retiredLines (s : Sw) (r : Region) : List Nat :=
  (s.arr.tags.filter fun e => tRetired e.2).filterMap fun e =>
    match (waysOf r.ways).findIdx? (· == e.1 % 16) with
    | none => none
    | some j =>
      let lo := r.l0 + 65536 * j
      let l := lo + (e.1 / 16 + 65536 - lo % 65536) % 65536
      if l < r.l0 + r.n then some l else none

/-- The fields of a PIN_BIND response: n, W and the first retired set. -/
def bindFields (r : Region) (set : Nat) : List (Nat × Nat × Nat) := [(0, 4, r.n), (4, 1, r.w), (8, 4, set)]

/-- Two address ranges meet. -/
def Region.overlaps (a b : Region) : Bool :=
  a.base.toNat < b.base.toNat + b.size * 2 ^ 17 && b.base.toNat < a.base.toNat + a.size * 2 ^ 17

/-- The checks of R140. -/
def checkBind (_ : Params) (_ : AlwaysOn) (s : Sw) (d : BitVec 416) : Option Reply :=
  let r := bindRegion s d
  let bad (set : Nat) : Option Reply := some (failWith 0x0021 cBAD_PARAM (bindFields r set))
  if r.typ == 3 || r.base.toNat % 2 ^ 17 != 0 || r.size == 0 || r.base.toNat + r.size * 2 ^ 17 > 2 ^ 52 then bad 0xFFFFFFFF
  else if (s.region (byteN d 0)).isSome || s.pin.regions.any (fun e => e.2.overlaps r) then bad 0xFFFFFFFF
  else if (r.ways &&& (s.cache.waySet ||| s.cache.setAhead ||| s.heldWays)) != 0 then bad 0xFFFFFFFF
  else if (waysOf r.ways).length != r.w then bad 0xFFFFFFFF
  else match minBy id (s.retiredLines r) with
    | some l => bad (setOf l)
    | none => none

/-- PIN_BIND. -/
def execPinBind (ch : BitVec 2) (s : State) : Host.Outcome State Fault Refusal :=
  .next (s.command ch 0x0021 checkBind fun _ ao sw d =>
    let r := bindRegion sw d
    (ao, (sw.onPin fun q => { q with regions := sput q.regions (byteN d 0) r }).beginWalk ch 0x0021 (.bind (byteN d 0)) r.n 0 0 [],
      none))

/-- R151. -/
def checkUnbind (_ : Params) (_ : AlwaysOn) (s : Sw) (d : BitVec 416) : Option Reply :=
  let r := byteN d 0
  let ok := (s.region r).any fun g => g.ph == .bound && !(g.typ == 2 && sget 0 s.gth.armed r != 0)
  if ok then none else some (fail 0x0022 cWRONG_STATE)

/-- Change the phase of a region. -/
def Sw.setPhase (s : Sw) (r : Nat) (ph : RegPh) : Sw :=
  s.onPin fun q => { q with regions := updFirst (fun e => e.1 == r) (fun e => (e.1, { e.2 with ph := ph })) q.regions }

/-- PIN_UNBIND. -/
def execPinUnbind (ch : BitVec 2) (s : State) : Host.Outcome State Fault Refusal :=
  .next (s.command ch 0x0022 checkUnbind fun _ ao sw d =>
    let r := byteN d 0
    (ao, (sw.setPhase r .unbinding).beginWalk ch 0x0022 (.unbind r) (sw.regOf r).n 0 0 [], none))

/-- A region goes, with its template and armed count (R150, R415). -/
def Sw.dropRegion (s : Sw) (r : Nat) : Sw :=
  (s.onPin fun q => { q with regions := sdel q.regions r }).onGth fun g => { g with tmpl := sdel g.tmpl r, armed := sdel g.armed r }

/-! ## FLUSH (R130 to R132) -/

/-- Eviction-buffer writes of the range that are present (R132). -/
def Sw.flushEvs (s : Sw) (whole : Bool) (base lines : Nat) : List Nat :=
  ((s.cache.ev.filter fun e => s.flushHas whole base lines e.line).map (·.ord))
    ++ (s.cache.evWait.filter fun e => s.flushHas whole base lines e.line).map (·.ord)

/-- FLUSH. -/
def execFlush (ch : BitVec 2) (s : State) : Host.Outcome State Fault Refusal :=
  .next (s.command ch 0x0070 noCheck fun _ ao sw d =>
    let whole := byteN d 1 == 0
    let base := bytesN d 4 8 / 128
    let lines := bytesN d 12 8
    let total := if whole then 65536 else ((List.range 65536).filter fun i => sw.flushSet whole base lines i).length
    (ao, (sw.beginWalk ch 0x0070 (.flush (byteN d 0) whole base lines) total 0 0 (sw.flushEvs whole base lines)).upWalk fun w =>
      { w with cur := sw.flushFrom whole base lines 0 }, none))

/-! ## GATHER_SAVE, GATHER_RESTORE, GATHER_DRAIN (R256 to R258) -/

/-- The template of a region that a gather command may act on (R256, R334). -/
def Sw.gatherTemplate (s : Sw) (r : Nat) : Option Template := if s.boundGather r then s.template r else none

/-- The checks of R256 but for those of an image. -/
def checkGather (op : Nat) (_ : Params) (_ : AlwaysOn) (s : Sw) (d : BitVec 416) : Option Reply :=
  match s.gatherTemplate (byteN d 0) with
  | none => some (fail op cWRONG_STATE)
  | some t =>
    if op != 0x0053 && bytesN d 4 4 + bytesN d 8 4 > ctxCount (s.regOf (byteN d 0)) t then some (fail op cBAD_PARAM) else none

/-- Lines of one context of a region. -/
def Sw.ctxLines (s : Sw) (r : Nat) : Nat := ((s.template r).map Template.c).getD 1

/-- GATHER_SAVE. -/
def execGatherSave (ch : BitVec 2) (s : State) : Host.Outcome State Fault Refusal :=
  .next (s.command ch 0x0051 (checkGather 0x0051) fun _ ao sw d =>
    let r := byteN d 0
    let clear := byteN d 1 == 1
    let m := bytesN d 8 4
    let c := sw.ctxLines r
    (ao, sw.beginWalk ch 0x0051 (.save r (bytesN d 4 4) m (fld d 96 52) (fld d 16 6) clear)
      (if clear then 2 * m * c else m * c) m c [], none))

/-- GATHER_RESTORE. -/
def execGatherRestore (ch : BitVec 2) (s : State) : Host.Outcome State Fault Refusal :=
  .next (s.command ch 0x0052 (checkGather 0x0052) fun _ ao sw d =>
    let r := byteN d 0
    (ao, sw.beginWalk ch 0x0052 (.restore r (bytesN d 4 4) (fld d 96 52) (fld d 16 6)) 0 0 (sw.ctxLines r) [], none))

/-- GATHER_DRAIN. -/
def execGatherDrain (ch : BitVec 2) (s : State) : Host.Outcome State Fault Refusal :=
  .next (s.command ch 0x0053 (checkGather 0x0053) fun _ ao sw d =>
    let r := byteN d 0
    let c := sw.ctxLines r
    let m := ((sw.template r).map (ctxCount (sw.regOf r))).getD 0
    (ao, sw.beginWalk ch 0x0053 (.drain r) (m * c) m c [], none))

/-! ## REPAIR_APPLY (R391 to R396) -/

/-- The place that a REPAIR_APPLY names. -/
def repairPlace (d : BitVec 416) : Place := ⟨byteN d 0, byteN d 1, byteN d 2, byteN d 3, bytesN d 4 2⟩

/-- The spares of a place's subarray and kind: in use, or bad. -/
def Rep.spareTaken (r : Rep) (p : Place) (i : Nat) : Bool :=
  r.bad.contains { p with index := i } || r.map.any fun e => e.1.sameSub p && e.1.kind == p.kind && e.2 == i

/-- The spare that serves a place is marked bad and released (R393). -/
def Rep.release (r : Rep) (p : Place) : Rep :=
  match r.map.find? fun e => e.1 == p with
  | some e => { r with map := dropFirst (fun x => x.1 == p) r.map, bad := r.bad ++ [spareOf e] }
  | none => r

/-- The lowest spare that a place may take (R393). -/
def Rep.spareFor (r : Rep) (p : Place) : Option Nat :=
  firstBelow (if p.kind == 0 then 8 else 4) fun i => !(r.release p).spareTaken p i

/-- The fault log loses an entry that matches (R391). -/
def Rep.unlog (r : Rep) (p : Place) : Rep :=
  if r.log.any fun e => e.1 == p then { r with log := dropFirst (fun e => e.1 == p) r.log, lastRemoved := some p } else r

/-- The command would need a record in a full list (R392). -/
def checkRepair (_ : Params) (_ : AlwaysOn) (s : Sw) (d : BitVec 416) : Option Reply :=
  let p := repairPlace d
  if !s.rep.retired.contains p && (s.rep.spareFor p).isNone && s.rep.retired.length ≥ 256 then some (fail 0x0082 cBAD_PARAM)
  else none

/-- REPAIR_APPLY. -/
def execRepairApply (ch : BitVec 2) (s : State) : Host.Outcome State Fault Refusal :=
  .next (s.command ch 0x0082 checkRepair fun _ ao sw d =>
    let p := repairPlace d
    let sw' := sw.onRep fun r => r.unlog p
    if sw.rep.retired.contains p then (ao, sw', some (failWith 0x0082 cREPAIR_EXHAUSTED [(0, 1, 1)]))
    else match sw.rep.spareFor p with
      | some i =>
        (ao, (sw'.onRep fun r => { r.release p with map := (r.release p).map ++ [(p, i)] }).beginWalk ch 0x0082 (.move p i) p.size 0 0 [],
          none)
      | none =>
        (ao, (sw'.onRep fun r => { r.release p with retired := r.retired ++ [p] }).beginWalk ch 0x0082 (.retire p) p.size 0 0 [], none))

/-! ## WALK_DONE (R338) -/

/-- What the end of a walk changes, and its response. -/
def Sw.walkResult (s : Sw) (w : Walk) : Sw × Reply :=
  let op := w.op.toNat
  let counted : Reply := okWith op [(0, 4, w.count)]
  match w.kind with
  | .part ways new groups rt =>
    (s.onCache fun c => c.later new groups rt, okWith op [(0, 2, new.toNat), (2, 2, (waysOf ways).length)])
  | .bind r => (s.setPhase r .bound, okWith op (bindFields (s.regOf r) 0xFFFFFFFF))
  | .unbind r => (s.dropRegion r, counted)
  | .save _ _ _ _ _ _ => (s, if w.failed then fail op cIMAGE_ERROR else counted)
  | .restore _ _ _ _ =>
    (s, if w.failed then fail op cIMAGE_ERROR else if w.status != cOK then fail op w.status else counted)
  | .move _ _ =>
    (s.onRep fun r => { r with applied := r.applied + 1 }, okWith op [(4, 4, w.count)])
  | .retire p =>
    ((s.onRep fun r => { r with applied := r.applied + 1 }).raise 19 (p.tier + p.bank * 4),
      failWith op cREPAIR_EXHAUSTED [(0, 1, 1), (8, 4, w.cur)])
  | _ => (s, counted)

/-- WALK_DONE: the completion condition of the running walk is met; a walk whose channel was reset ends without a response
(R332, R412). -/
def execWalkDone (s : State) : Host.Outcome State Fault Refusal :=
  .next (s.run fun _ _ sw =>
    match sw.walk with
    | some w =>
      if sw.walkEnded w then
        let (sw, r) := (sw.onWalk fun _ => none).walkResult w
        let sw := sw.raise 484 0
        match w.ch with
        | some n => sw.finish n r
        | none => sw
      else sw
    | none => sw)

end Sys2Proof.Machine
end

