-- ==== Sys2Proof/Machine/Take.lean ====
section
/-! DEFINITION. Firmware takes commands: COMMAND_TAKE, CRC_REREAD; loading and starting firmware; FW_VERSION (14, R321 to
R324, R329, R330, R337). -/
namespace Sys2Proof.Machine

/-! ## Check 8 -/

/-- The own checks of the command of an opcode (check 8 of R329). -/
def ownCheck (op : Nat) : Params → AlwaysOn → Sw → BitVec 416 → Option Reply :=
  match op with
  | 0x0002 => checkStart
  | 0x0004 => checkFence
  | 0x0005 => checkReset
  | 0x0010 => checkInterleave
  | 0x0020 => checkPart
  | 0x0021 => checkBind
  | 0x0022 => checkUnbind
  | 0x0030 => checkLoad
  | 0x0031 => checkSwitch
  | 0x0032 => checkFrame
  | 0x0040 => checkAdmit
  | 0x0050 => checkTemplate
  | 0x0051 => checkGather 0x0051
  | 0x0052 => checkGather 0x0052
  | 0x0053 => checkGather 0x0053
  | 0x0060 => checkSync
  | 0x0082 => checkRepair
  | _ => noCheck

/-! ## Taking a command (R329, R330) -/

/-- Check 1: the CRC, and SEQ (R329). -/
def Chan.bufOk (c : Chan) : Bool := bufCrc c.cmd == bytesN c.cmd 8 4 && fld c.cmd 48 16 == c.seq

/-- Check 1 has passed: STATE is RUNNING, and checks 2 to 8 complete the command or leave it to its row. -/
def Sw.takeCmd (s : Sw) (p : Params) (ao : AlwaysOn) (n : BitVec 2) : Sw :=
  let b := (s.mbx.ch n).cmd
  let s := s.onCh n fun c => { c with
    st := .running, rereads := 0, rereadAt := none, run := some ⟨fld b 0 16, fld b 32 16, fld b 96 416, false⟩ }
  match s.checkBuf ao n b with
  | some st => s.finish n ⟨st, 0, 0⟩
  | none => match ownCheck (bytesN b 0 2) p ao s (fld b 96 416) with
    | some r => s.finish n r
    | none => s

/-- A command that firmware has taken waits for its row: a short command is running (R334). -/
def Mbx.busy (m : Mbx) : Bool := [m.ch0, m.ch1, m.ch2, m.ch3].any fun c => c.run.any fun r => !r.started

/-- The channel that the scan finds: POSTED, and not waiting to be read again (R329). -/
def Mbx.next (m : Mbx) : Option (BitVec 2) :=
  ([m.last + 1, m.last + 2, m.last + 3, m.last] : List (BitVec 2)).find? fun n => (m.ch n).st == .posted && (m.ch n).rereadAt.isNone

/-- Clk after which a command that failed check 1 is read again (R330). -/
def rereadClk : Nat := 2500

/-- The command of a channel conflicts with a command that another channel runs (R314, R334). -/
def Sw.clashes (s : Sw) (n : BitVec 2) : Bool :=
  (cmdRow (bytesN (s.mbx.ch n).cmd 0 2)).any fun r => s.otherRuns n r.group

/-- COMMAND_TAKE on the switched region: a command waits while a short command runs, unless the two conflict (R314, R334; log 101). -/
def Sw.commandTake (s : Sw) (p : Params) (ao : AlwaysOn) : Sw :=
  match s.mbx.next with
  | none => s
  | some n =>
    if !s.life.lehrUp || (s.mbx.busy && !s.clashes n) then s
    else
      let s := (s.onMbx fun m => { m with last := n }).count 10 0 1 none
      if (s.mbx.ch n).bufOk then s.takeCmd p ao n
      else s.onCh n fun c => { c with rereads := 0, rereadAt := some (s.fr.clk + rereadClk) }

/-- COMMAND_TAKE. -/
def execCommandTake (s : State) : Host.Outcome State Fault Refusal := .next (s.run fun p ao sw => sw.commandTake p ao)

/-- CRC_REREAD on the switched region: the third failure completes with TORN_COMMAND (R330). -/
def Sw.reread (s : Sw) (p : Params) (ao : AlwaysOn) (n : BitVec 2) : Sw :=
  let c := s.mbx.ch n
  if !s.life.lehrUp || s.mbx.busy || c.st != .posted || !(c.rereadAt.any (· ≤ s.fr.clk)) then s
  else
    let s := s.count 10 3 1 none
    if c.bufOk then s.takeCmd p ao n
    else if c.rereads ≥ 2 then s.finishAs n (fld c.cmd 0 16) (fld c.cmd 32 16) ⟨cTORN_COMMAND, 0, 0⟩
    else s.onCh n fun c => { c with rereads := c.rereads + 1, rereadAt := some (s.fr.clk + rereadClk) }

/-- CRC_REREAD. -/
def execCrcReread (ch : BitVec 2) (s : State) : Host.Outcome State Fault Refusal := .next (s.run fun p ao sw => sw.reread p ao ch)

/-! ## Loading firmware (R322, R323) -/

/-- Update firmware. -/
def Sw.onFw (s : Sw) (f : Fw → Fw) : Sw := s.onLife fun l => { l with fw := f l.fw }

/-- FW_LOAD_BEGIN discards any earlier load. -/
def execFwLoadBegin (ch : BitVec 2) (s : State) : Host.Outcome State Fault Refusal :=
  .next (s.command ch 0x00F8 noCheck fun _ ao sw d =>
    (ao, sw.onFw fun _ => { Fw.reset with length := some (bytesN d 0 4) }, some (okWith 0x00F8 [])))

/-- FW_LOAD_DATA: 48 bytes at OFFSET; those beyond LENGTH are ignored, and all of them without a FW_LOAD_BEGIN. -/
def Fw.data (f : Fw) (off : Nat) (v : Nat) : Fw :=
  match f.length with
  | none => f
  | some len =>
    let n := min 48 (len - off)
    let ws := ((List.range 12).map fun i => off / 4 + i).filter fun w => 4 * w < len && !f.words.contains w
    { f with image := Memory.writeN f.image off n (v % 2 ^ (8 * n)), words := ws.foldl (fun l w => insNat w l) f.words }

/-- FW_LOAD_DATA. -/
def execFwLoadData (ch : BitVec 2) (s : State) : Host.Outcome State Fault Refusal :=
  .next (s.command ch 0x00F9 noCheck fun _ ao sw d =>
    (ao, sw.onFw fun f => f.data (bytesN d 0 4) (bytesN d 4 48), some (okWith 0x00F9 [])))

/-- FW_LOAD_END: the checks run until FIRMWARE_START. -/
def execFwLoadEnd (ch : BitVec 2) (s : State) : Host.Outcome State Fault Refusal :=
  .next (s.command ch 0x00FA noCheck fun _ ao sw _ => (ao, sw.onFw fun f => { f with checking := true }, none))

/-- Little-endian bytes of the image. -/
def Fw.le (f : Fw) (b n : Nat) : Nat := Memory.readN f.image b n

/-- Big-endian bytes of the image. -/
def Fw.be (f : Fw) (b n : Nat) : Nat := (List.range n).foldl (fun v i => v * 256 + (Memory.byte f.image (b + i)).toNat) 0

/-- Check 1 of R323. -/
def Fw.complete (f : Fw) : Bool := match f.length with
  | some len => (List.range ((len + 3) / 4)).all fun w => f.words.contains w
  | none => false

/-- Checks 2 and 3 of R323. -/
def Fw.headerOk (f : Fw) : Bool :=
  let body := f.le 12 4
  f.le 0 4 == 0x5248454C && f.le 4 2 == 1 && f.le 9 1 == 0 && body % 4 == 0 && 4 ≤ body && body ≤ 196608
    && f.le 16 4 < body && f.le 16 4 % 4 == 0 && f.length == some (256 + body) && f.le 168 88 == 0
    && f.le 10 1 == 2 && f.le 11 1 ≤ 1

/-- SHA-384 of the body (R322). -/
def Fw.bodyHash (f : Fw) (len : Nat) : BitVec 384 := sha384 len fun i => (Memory.byte f.image (256 + i)).toNat

/-- Checks 4 and 5 of R323. -/
def Fw.authentic (f : Fw) : Bool :=
  f.bodyHash (f.le 12 4) == BitVec.ofNat 384 (f.be 24 48)
    && Config.signatureVerifies (sha384 72 fun i => (Memory.byte f.image i).toNat) (BitVec.ofNat 384 (f.be 72 48))
      (BitVec.ofNat 384 (f.be 120 48))

/-- The identity of a checked image. -/
def Fw.accept (f : Fw) : Fw :=
  { f with
    length := none, words := [], checking := false, loaded := true, entry := BitVec.ofNat 32 (f.le 16 4)
    major := BitVec.ofNat 8 (f.le 6 1), minor := BitVec.ofNat 8 (f.le 7 1), patch := BitVec.ofNat 8 (f.le 8 1)
    build := BitVec.ofNat 32 (f.le 20 4), digest := BitVec.ofNat 384 (f.be 24 48), bodyLen := f.le 12 4 }

/-- The slice enters SAFE for a firmware check, unless it has fenced (R23), and the body is cleared (R320, R323). -/
def Sw.enterSafe (s : Sw) : Sw :=
  s.onLife fun l => { l with st := if l.st == .fenced then .fenced else .safe, safeCause := 1, fw := Fw.reset }

/-- A walk that a reset held resumes after the sweep, in CONFIG (R412). -/
def Sw.resumeWalk (s : Sw) : Sw :=
  if s.life.sweep.isNone && s.life.st == .config then s.onWalk fun w => w.map fun w => { w with held := false } else s

/-- Firmware enables the banks of the LEHR target, which it serves (R369, R370; log 102). -/
def Sw.enableLehr (s : Sw) : Sw := ([0, 1, 10] : List Nat).foldl (fun s n => s.onBank n fun b => { b with en := true }) s

/-- Firmware runs: CONFIG, and the watchdog is armed (R323, R407). A fenced slice stays FENCED (R23). -/
def Sw.startFirmware (s : Sw) (refClk : Nat) : Sw :=
  (s.enableLehr.onLife fun l => { l with
    st := if l.st == .fenced then .fenced else .config, safeCause := 0, wdog := some refClk, wdogWarned := false }).resumeWalk

/-- FIRMWARE_START on the switched region: the checks of R323 end the load; in a slice that has fenced the command ends with FENCED
and the state stays (R23, R336). -/
def Sw.firmwareStart (s : Sw) (ao : AlwaysOn) : Sw :=
  let f := s.life.fw
  let done (s : Sw) (st : BitVec 8) : Sw := s.finish 0 ⟨st, 0, 0⟩
  let ended (s : Sw) : Sw := s.onFw fun f => { f with checking := false, length := none, words := [] }
  if !f.checking || !s.life.lehrUp then s
  else if s.life.st == .fenced then done (ended s) cFENCED
  else if !f.complete then done (ended s) cWRONG_STATE
  else if !f.headerOk then done s.enterSafe cBAD_IMAGE
  else if !f.authentic then done s.enterSafe cAUTH_FAIL
  else (done (s.onFw Fw.accept) cOK).startFirmware ao.refClk

/-- FIRMWARE_START. -/
def execFirmwareStart (s : State) : Host.Outcome State Fault Refusal := .next (s.run fun _ ao sw => sw.firmwareStart ao)

/-! ## FW_VERSION (R337) -/

/-- The FW_VERSION payload: zeros but for the boot ROM version while no firmware runs. -/
def versionFields (l : Life) : List (Nat × Nat × Nat) :=
  let rom := [(16, 2, Config.bootRomVersion.toNat)]
  if l.st == .boot || l.st == .safe then rom
  else
    [(0, 1, l.fw.major.toNat), (1, 1, l.fw.minor.toNat), (2, 1, l.fw.patch.toNat), (3, 1, 1), (4, 4, l.fw.build.toNat)]
      ++ (List.range 8).map (fun i => (8 + i, 1, l.fw.digest.toNat >>> (8 * (47 - i)))) ++ rom

/-- FW_VERSION. -/
def execFwVersion (ch : BitVec 2) (s : State) : Host.Outcome State Fault Refusal :=
  .next (s.command ch 0x00F0 noCheck fun _ ao sw _ => (ao, sw, some (okWith 0x00F0 (versionFields sw.life))))

end Sys2Proof.Machine
end

