-- ==== Sys2Proof/Machine/Observe.lean ====
section
/-! DEFINITION. What happens by itself around the slots: ticks, frame boundaries, gtime, wire events, deliveries, the trace port,
timers, droops, and the end of a dead domain's drain (02, R53, R54, R60; 04, R87 to R89; 08, R206; 16, R367 to R370; 18, R407;
19, R434, R439). -/
namespace Sys2Proof.Machine

/-! ## Ticks and boundaries (R87 to R89) -/

/-- The TICK_LOST status bit takes a level; its filter counts from a change (R88, R368). -/
def Frame.setTickLost (f : Frame) (level : Bool) : Frame :=
  if f.tickLost == level then f else { f with tickLost := level, tickLostAt := f.clk }

/-- A tick places frame clk 0 in this clk (R87): on time, or as a slip at position n, where the frame ended with the clk before. The
first alignment after a reset is not counted. -/
def Sw.tick (s : Sw) (p : Params) : Sw :=
  let n := s.fr.pos
  let first := !s.fr.aligned
  let s :=
    if n == 0 then s
    else
      let s := s.frameEnd p n (s.fr.clk - 1) true
      if first then s
      else (s.onFr fun f => { f with slips := f.slips + 1, lastSlip := BitVec.ofNat 13 n }).raise 3 n
  s.onFr fun f => { f.setTickLost false with aligned := true, tickFrom := f.tickFrom.map fun _ => f.clk }

/-- TICK_TAKEN. -/
def execTickTaken (s : State) : Host.Outcome State Fault Refusal := .next (s.run fun p _ sw => sw.tick p)

/-- FRAME_CLKS + 64 clk have passed without a tick (R88). -/
def Frame.tickOverdue (f : Frame) : Bool := f.tickFrom.any fun c => c + f.len + 64 ≤ f.clk

/-- TICK_LOST (R88): the status bit; its event follows through the filter of R368. -/
def execTickLost (s : State) : Host.Outcome State Fault Refusal :=
  .next (s.run fun _ _ sw => if sw.fr.tickOverdue then sw.onFr fun f => f.setTickLost true else sw)

/-- FRAME_BOUNDARY (R89): the boundary that is due. -/
def execFrameBoundary (s : State) : Host.Outcome State Fault Refusal := .next (s.run fun _ _ sw => sw.boundary)

/-- The totals of an ended frame as PMC_SLOT0 to PMC_SLOT2 show them (R434, R435). -/
def Pmc.slotReport (p : Pmc) (t : SlotTot) : Pmc :=
  let w (lo hi : Nat) : BitVec 32 := BitVec.ofNat 32 (lo % 2 ^ 14 + (hi % 2 ^ 14) * 2 ^ 16)
  { p with slot0 := w t.retired t.wasted, slot1 := w t.front t.back, slot2 := w t.bg t.total, slotGtime := t.gtime }

/-- The totals of the frames whose reports are due are written in the order in which the frames ended (R434). -/
def Sw.slotReports (s : Sw) : Sw :=
  let due := s.fr.report.filter fun r => r.2 ≤ s.fr.clk
  (s.onPmc fun p => if p.held then p else due.foldl (fun p r => p.slotReport r.1) p).onFr fun f => { f with
    report := f.report.filter fun r => s.fr.clk < r.2 }

/-- PMC_SLOT_REPORT (R434): 8 clk after the boundary. -/
def execPmcSlotReport (s : State) : Host.Outcome State Fault Refusal := .next (s.run fun _ _ sw => sw.slotReports)

/-- fuse_rd_req at a ref_clk edge: it is low for at least one cycle between two words (R59). -/
def Fuse.edge (f : Fuse) (refClk : Nat) : Fuse :=
  if f.done || f.rdReq || refClk < f.since + 2 then f else { f with rdReq := true, since := refClk }

/-- A ref_clk cycle ends for the sclk monitor (R406); `works` says that the switched region is out of reset and powered. -/
def SclkMon.cycle (m : SclkMon) (works : Bool) : SclkMon :=
  ⟨0, if 3 ≤ m.edges then min 64 (m.good + 1) else 0, if works && m.edges < 2 then min 4 (m.slow + 1) else 0⟩

/-- GTIME_CAPTURE (R54): a ref_clk edge; the sclk copy lags the input. The always-on region counts the edge, the sclk
monitor ends a cycle, and the fuse port works at
it unless its outputs are isolated (R59, R417). -/
def execGtimeCapture (gtime : BitVec 64) (s : State) : Host.Outcome State Fault Refusal :=
  .next (s.always fun _ ao sw =>
    ({ ao with refClk := ao.refClk + 1, sclk := ao.sclk.cycle (ao.hold.isNone && !ao.asleep) },
      if ao.hold.isNone && !ao.asleep then
        (sw.onFr fun f => { f with gtime := f.gcap2, gcap2 := f.gcap1, gcap1 := gtime }).onLife fun l =>
          { l with fuse := if sw.port.isolate == .none then l.fuse.edge (ao.refClk + 1) else l.fuse }
      else sw))

/-! ## Events (R367, R368, R370) -/

/-- The event ID of a wire-sensed source (R367). -/
def wireEvent : Wire → Nat
  | .tickLost => 2
  | .mpAlert => 7
  | .bor => 9

/-- The output of a filter. -/
def Evt.filtOut (v : Evt) : Wire → Bool
  | .tickLost => v.filtTick
  | .mpAlert => v.filtAlert
  | .bor => v.filtBor

/-- The output of a filter takes a level in clk `clk`. -/
def Evt.setFilt (v : Evt) (w : Wire) (level : Bool) (clk : Nat) : Evt :=
  let v := { v with filtAt := sput v.filtAt (wireEvent w) clk }
  match w with
  | .tickLost => { v with filtTick := level }
  | .mpAlert => { v with filtAlert := level }
  | .bor => { v with filtBor := level }

/-- Clk for which an input must have been stable: FILT + 1, where a FILT of 0 acts as 1 (R368, R374). -/
def Sw.filtClks (s : Sw) (w : Wire) : Nat := max 1 (fldN (s.src (wireEvent w)).cfg 24 6) + 1

/-- The input of a filter can have been at the level for the clk that FILT asks: the output took its present level that long ago at
the earliest, and for TICK_LOST the status bit did (R368). -/
def Sw.filtStable (s : Sw) (w : Wire) (level : Bool) : Bool :=
  sget 0 s.evt.filtAt (wireEvent w) + s.filtClks w ≤ s.fr.clk && match w with
    | .tickLost => level == s.fr.tickLost && s.fr.tickLostAt + s.filtClks w ≤ s.fr.clk
    | _ => true

/-- A filter output takes a new level; its rise is one occurrence (R368). -/
def Sw.filterOut (s : Sw) (w : Wire) (level : Bool) : Sw :=
  if s.evt.filtOut w == level || !s.filtStable w level then s
  else
    let s := s.onEvt fun v => v.setFilt w level s.fr.clk
    if level then s.raise (wireEvent w) 0 else s

/-- WIRE_EVENT_FILTER (R368): the input has been stable at a level; a rising output is one occurrence. -/
def execWireEventFilter (wire : Wire) (level : Bool) (s : State) : Host.Outcome State Fault Refusal :=
  .next (s.run fun _ _ sw => sw.filterOut wire level)

/-- The delivery of a host bank (R370): target 1 to 4, bank 0 or 1, and its count. -/
def deliveryIo (p : Params) (t b : Nat) (sent : BitVec 16) : Io :=
  let base : BitVec 52 := match t with
    | 1 => p.evt0
    | 2 => p.evt1
    | 3 => p.evt2
    | _ => p.evt3
  ⟨0x03, 0, p.sliceRid, base + BitVec.ofNat 52 (32 * b), 3, 3, 0, 0,
    BitVec.ofNat 512 (p.sliceIndex.toNat + b * 2 ^ 7 + t * 2 ^ 8 + sent.toNat * 2 ^ 16)⟩

/-- The bank has sent a delivery. -/
def BankSt.deliver (b : BankSt) : BankSt := { b with signalled := true, sent := b.sent + 1 }

/-- An IO response waits to leave. -/
def Sw.ioRespWaits (s : Sw) : Bool := s.pipe.rsp.any fun r => r.lane == some .io && s.ready r

/-- A delivery of bank number `n` (R370), which an enabled bank makes in a slice that is not fenced. Banks 0, 1 and 10 raise the
Lehr's interrupt line; a host bank sends a flit, a NORMAL one after the FAST ones and the IO responses that wait. -/
def Sw.deliver (s : Sw) (p : Params) (n : Nat) : Sw :=
  let k := s.evt.bankAt n
  if !k.en || k.signalled || s.life.st == .fenced || !s.evt.ripe n s.fr.clk then s
  else if n < 2 || n == 10 then
    if s.life.lehrUp then s.onBank n BankSt.deliver else s
  else
    let fast := n % 2 == 1
    if !s.port.free .io || !s.hasOut .io || (!fast && (s.fastWaits || s.ioRespWaits)) then s
    else
      let f := ioFlit (deliveryIo p (n / 2) (n % 2) (k.sent + 1))
      ((((s.onBank n BankSt.deliver).spendOut .io).onPort fun o => { o with ioOut := some f }).sent 1 none).count 10 7 1 none

/-- EVT_DELIVERY. -/
def execEvtDelivery (bank : Bank) (s : State) : Host.Outcome State Fault Refusal :=
  .next (s.run fun p _ sw => sw.deliver p (bankNum bank))

/-- Firmware restarts the armed watchdog (R407, R429). -/
def Sw.restartWdog (s : Sw) (refClk : Nat) : Sw :=
  if s.life.wdog.isNone then s
  else (s.onLife fun l => { l with wdog := some refClk, wdogWarned := false }).count 10 5 1 none

/-- LEHR_TIMER (R367): the timer of the running Lehr expires, and firmware restarts the watchdog with it (log 18). -/
def execLehrTimer (s : State) : Host.Outcome State Fault Refusal :=
  .next (s.run fun _ ao sw => if sw.life.lehrUp then (sw.raise 485 0).restartWdog ao.refClk else sw)

/-- WDOG_WARN (R407): 25 ms since the last restart of the armed watchdog. -/
def execWdogWarn (s : State) : Host.Outcome State Fault Refusal :=
  .next (s.run fun p ao sw =>
    if !sw.life.wdogWarned && sw.life.wdog.any (fun t => t + usRef p 25000 ≤ ao.refClk) then
      (sw.onLife fun l => { l with wdogWarned := true }).raise 486 0
    else sw)

/-! ## The trace port and the droop detectors (R60, R439) -/

/-- TRACE_TRANSFER (R60): the record at the head transfers when the receiver is ready. -/
def execTraceTransfer (ready : Bool) (s : State) : Host.Outcome State Fault Refusal :=
  .next (s.run fun _ ao sw =>
    if ready && sw.port.isolate == .none && !ao.held 4 then sw.onTrc fun t => { t with buf := t.buf.drop 1 } else sw)

/-- DROOP_EXCURSION (R439): one more excursion at a tier, or at the base (site 4). -/
def execDroopExcursion (site : BitVec 3) (s : State) : Host.Outcome State Fault Refusal :=
  .next (s.run fun _ _ sw =>
    sw.onTel fun t => { t with live := { t.live with
      droop := t.live.droop.set site.toNat (t.live.droop.getD site.toNat 0 + 1) } })

/-! ## The end of the drain (R206) -/

/-- A response of the drain still waits (R206). -/
def Sw.drainWaits (s : Sw) (p : Params) : Bool := s.pipe.rsp.any fun r => match r.body with
  | .io _ => r.windowed p
  | _ => true

/-- DOMAIN_DRAIN_END: every response of the drain has left, or 4,096 clk have passed since d. -/
def execDomainDrainEnd (s : State) : Host.Outcome State Fault Refusal :=
  .next (s.run fun p _ sw =>
    match sw.life.drain with
    | some d => if !sw.drainWaits p || d + 4096 ≤ sw.fr.clk then sw.fence p else sw
    | none => sw)

end Sys2Proof.Machine
end

