-- ==== Sys2Proof/Machine/Reset.lean ====
section
/-! DEFINITION. Cold and warm reset: what an assertion leaves, the release, the warm sweep, the fuse read and the release of the
Lehr (18, R403 to R413; 15, R360, R361, R366; 17, R386 to R388, R397 to R399; 14, R321, R324, R332; 02, R58, R59). -/
namespace Sys2Proof.Machine

/-! ## What each reach leaves (R409) -/

/-- A channel at a reset that reaches the Lehr (R332). -/
def Chan.atReset (c : Chan) : Chan :=
  let lost := c.st == .posted || c.st == .running
  { c with
    cmd := 0, rsp := 0, st := if lost then .done else c.st, code := if lost then cRECEIVER_RESET else c.code
    rereads := 0, rereadAt := none, run := none }

/-- The four channels (R332). -/
def Mbx.atReset (m : Mbx) : Mbx :=
  { m with ch0 := m.ch0.atReset, ch1 := m.ch1.atReset, ch2 := m.ch2.atReset, ch3 := m.ch3.atReset }

/-- The slice stays in SAFE after a fuse timeout until cause 1 or 2 (R386); a fenced slice keeps the mark. -/
def Life.stuck (l : Life) : Bool := (l.st == .safe || l.st == .fenced) && l.safeCause == 2

/-- The reads outstanding at a reset: their tags stay in use until their beats have come (R411). -/
def Mp.orphans (m : Mp) : List (Nat × Nat) := m.stale ++ m.out.map fun o => (o.tag, if o.beat0.isSome then 1 else 2)

/-- The line whose beat 0 has transferred and whose beat 1 has not (R411). -/
def Mp.halfLine (m : Mp) : List EvEnt := m.wrHalf.toList.map (·.1)

/-- The memory port after a cold reset of cause 5 or 6 (R411). -/
def Sw.coldMp (s : Sw) : Mp :=
  { Mp.reset with
    filtered := s.mp.filtered, stale := s.mp.orphans, wrHalf := s.mp.wrHalf
    staleWr := s.mp.staleWr ++ (s.cache.ev.filter fun e => e.st == .written).map (·.tag) }

/-- Lifecycle after a cold reset: BOOT, or SAFE after a fuse timeout that causes 5 and 6 do not leave (R386, R409). -/
def Life.cold (l : Life) (refClk : Nat) (powerOn : Bool) : Life :=
  let keep := !powerOn && l.stuck
  { Life.reset with
    st := if keep then .safe else .boot, safeCause := if keep then 2 else 0
    fuse := { (if powerOn then Life.reset.fuse else l.fuse) with rdReq := false, since := refClk } }

/-- Repair state after a cold reset (R398, R399). -/
def Rep.cold (r : Rep) (powerOn : Bool) : Rep :=
  if powerOn then Rep.reset else { Rep.reset with map := r.map, bad := r.bad, retired := r.retired }

/-- The switched region from the assertion of a cold reset on (R366, R409, R411). Failed cells stay failed. -/
def Sw.cold (s : Sw) (refClk : Nat) (powerOn : Bool) : Sw :=
  { Sw.reset with
    life := s.life.cold refClk powerOn
    port := Port.reset
    q := { Queues.reset with nextId := s.q.nextId }
    pipe := { Pipe.reset with nextSeq := s.pipe.nextSeq }
    arr := { Arr.reset with errs := s.arr.errs.filter (·.hard), sensed := s.arr.sensed }
    cache := { Cache.reset with ev := if powerOn then [] else s.mp.halfLine, nextOrd := s.cache.nextOrd }
    mp := if powerOn then Mp.reset else s.coldMp
    fr := { Frame.reset with clk := s.fr.clk }
    mbx := if powerOn then Mbx.reset else s.mbx.atReset
    tel := { Tel.reset with sampled := s.tel.sampled }
    rep := s.rep.cold powerOn }

/-- Lifecycle after a warm reset: the SRAM is kept, and the boot ROM will check it (R324, R409). -/
def Life.warmed (l : Life) : Life :=
  { Life.reset with
    st := if l.stuck then .safe else .boot, safeCause := if l.stuck then 2 else 0
    fuse := { l.fuse with rdReq := false }, filled := l.filled, warm := true
    fw := { l.fw with length := none, words := [], checking := false } }

/-- The frame unit at a warm reset: clk, frame number, FRAME_CLKS and the Stake copies are kept, and a pending switch is withdrawn
(R366, R409). -/
def Frame.quiesce (f : Frame) : Frame :=
  { Frame.reset with
    clk := f.clk, len := f.len, lenNext := f.lenNext, frameNo := f.frameNo, copyA := f.copyA, copyB := f.copyB
    active := f.active, everSwitched := f.everSwitched, tickLostAt := f.clk }

/-- The frame unit at sleep, which is no reset: a pending switch stays (R103, R425). -/
def Frame.sleep (f : Frame) : Frame := { f.quiesce with switch := f.switch }

/-- The memory port at a warm reset and at sleep: outstanding reads are discarded when they return; writes go on (R411). -/
def Mp.quiesce (m : Mp) : Mp :=
  { m with
    rb := 0, wb := 0, wait := [], presented := none, rdPin := none, out := [], stale := m.orphans, wrPin := [], rdPtr := 0
    rdGranted := [] }

/-- Why a line goes to memory, once a reset has come: a line of a sweep that was cut short is written as any other (R410, R411). -/
def EvWhy.kept (w : EvWhy) : EvWhy := if w == .sweep then .walk else w

/-- The cache unit at a warm reset and at sleep: lines on their way to memory and the tables are kept (R409). -/
def Cache.quiesce (c : Cache) : Cache :=
  { c with
    det := [], detPtr := [], side := [], ev := c.ev.map fun e => { e with why := e.why.kept }
    evWait := c.evWait.map fun e => { e with why := e.why.kept } }

/-- The writes of the port's present clk count as not transferred when isolation engages asynchronously: their lines wait again, with
beat 0 alone sent where it transferred before (R65, R411); a read that transfers in this clk is not outstanding. -/
def Sw.unsend (s : Sw) : Sw :=
  let has (k : Bool) (tag : Nat) : Bool := s.mp.wrPin.any fun b => b.beat == k && b.tag.toNat == tag
  let back := (s.cache.ev.filter fun e => e.st == .written && has true e.tag).map fun e => { e with st := .waiting }
  let half := match s.mp.wrHalf with
    | some (e, a) => if has false e.tag then none else some (e, a)
    | none => ((back.filter fun e => !has false e.tag).head?).map fun e => (e, s.map.addr e.line)
  let s := s.onCache fun c => { c with ev := c.ev.map fun e => (back.find? fun b => b.ord == e.ord).getD e }
  s.onMp fun m => { m with wrHalf := half, out := m.out.filter fun o => !(m.rdPin.any fun r => r.1 == o.tag) }

/-- Counters at a warm reset and at wake (R440). -/
def Pmc.clear (p : Pmc) : Pmc :=
  { Pmc.reset with
    cfg := (p.cfg.map fun e => (e.1, e.2 &&& 7#4)).filter (fun e => e.2 != 0), filt := p.filt, k := p.k }

/-- Trace at a warm reset and at wake (R440). -/
def Trc.clear (t : Trc) : Trc := { Trc.reset with ctrl := t.ctrl, filt := t.filt }

/-- A warm reset of the event unit (R377). -/
def Evt.warmed (e : Evt) : Evt :=
  { e with
    src := (e.src.map fun x => (x.1, { EvtSrc.reset with mask := x.2.mask, cfg := x.2.cfg, routed := fld x.2.cfg 0 4 })).filter fun x => x.2 != EvtSrc.reset
    bank := (e.bank.map fun x => (x.1, { BankSt.reset with en := x.2.en })).filter fun x => x.2 != BankSt.reset
    cand := [], filtTick := false, filtAlert := false, filtBor := false, filtAt := [] }

/-- Marver at a reset of any reach: the lap starts at unit 0, every bank is pending at its default setting, and the fault log is empty
(R399, R402). -/
def Rep.restart (r : Rep) : Rep :=
  { r with
    log := [], lastRemoved := none, unit := 0, lapFrom := 0, lapDone := false, calPend := BitVec.allOnes 64
    calBank := none, calUnits := 0, calTemp := [], sense := [] }

/-- The image accesses of a walk that awaited an answer are issued again; every other request of the slice's own is lost (R412). -/
def GthSt.quiesce (g : GthSt) : GthSt :=
  { g with
    ro := []
    self := (g.self.filter fun q => match q.owner with
      | .image _ _ => true
      | _ => false).map fun q => { q with st := .toSend } }

/-- The walk at a warm reset: held at its first unit that has not committed, without its channel (R412). -/
def Sw.holdSilent (s : Sw) : Sw := s.holdWalk.upWalk fun w => { w with ch := none }

/-- The part of the switched region that both a warm reset and logic power-off clear: pipeline, queues, home, buffers. -/
def Sw.quiesceLogic (s : Sw) : Sw :=
  let s := s.cancelWrites
  { s with
    port := Port.reset
    q := { Queues.reset with nextId := s.q.nextId }
    pipe := { Pipe.reset with nextSeq := s.pipe.nextSeq }
    home := Home.reset
    cache := s.cache.quiesce
    mp := s.mp.quiesce
    qos := { s.qos with missSlot := 0, missBw := 0, missDl := 0, dlAt := none }
    pin := { s.pin with aptOpen := [] }
    gth := s.gth.quiesce
    syn := { s.syn with nq := [] }
    pmc := s.pmc.clear
    trc := s.trc.clear
    tel := { s.tel with units := 4 } }

/-- The switched region from the assertion of a warm reset on (R366, R409, R411 to R413). -/
def Sw.warmed (s : Sw) : Sw :=
  let s := s.holdSilent.quiesceLogic
  { s with
    life := s.life.warmed
    fr := s.fr.quiesce
    arr := { s.arr with dir := [], errs := s.arr.errs.filter (fun e => e.st != Store.dir || e.hard), verify := [] }
    pin := { s.pin with aptNext := [] }
    gth := { s.gth with tmplNext := [] }
    mbx := s.mbx.atReset
    evt := s.evt.warmed
    rep := s.rep.restart }

/-! ## Assertion (R360, R361, R403 to R405) -/

/-- The outputs toward the package reset controller at an assertion (R58, R404, R405). -/
def AlwaysOn.signal (a : AlwaysOn) (cause : BitVec 4) (st : SliceSt) : AlwaysOn :=
  if cause.toNat ≤ 3 then { a with domFatalOut := false, rstReqOut := false }
  else if a.hold.any fun h => h.raised.any fun c => c.toNat ≤ 3 then a
  else if cause == 7 || st == .running || st == .quiescing || st == .quiesced || st == .fenced then { a with rstReqOut := true }
  else a

/-- The tiers at a cold reset of cause 5 or 6: TIER_OFF is cleared, and tiers that hold power are filled again (R403, R409). -/
def AlwaysOn.refill (a : AlwaysOn) : AlwaysOn :=
  let a := a.writeTierOff 0
  { a with tiers := a.tiers.map fun t =>
      if t.st == .on || t.st == .filling then { t with st := .filling, ready := true, fillAt := none } else t }

/-- A new reset holds the switched region. Block resets that hold units, and a reset of narrower reach, end in it and are
counted at its release; a software reset whose response has not left can no longer be raised. -/
def AlwaysOn.hold_ (a : AlwaysOn) (cause : BitVec 4) (causes : List (BitVec 4)) (reach : BitVec 2) (clk : Nat)
    (besides : List (BitVec 4)) : AlwaysOn :=
  let before := match a.hold with
    | some h => h.raised
    | none => []
  { a with
    hold := some ⟨cause, reach, before ++ a.blockHolds.flatMap (fun b => b.raised) ++ causes, a.refClk, false, clk,
      besides.filter fun c => !causes.contains c, none⟩
    blockHolds := [], swReset := a.swReset.filter fun r => r.due != 0 }

/-- A reset of no wider reach than the one in progress is absorbed and counted; of two raised in one clk with equal reach the lower
cause is recorded (R360). A pin holds the reset anew (R406). -/
def Hold.absorb (h : Hold) (cause : BitVec 4) (causes : List (BitVec 4)) (reach : BitVec 2) (clk : Nat) : Hold :=
  { h with
    raised := h.raised ++ causes
    cause := if h.clk == clk && h.reach == reach && cause.toNat < h.cause.toNat then cause else h.cause
    besides := h.besides.filter fun c => !causes.contains c
    refOut := if cause.toNat ≤ 3 then none else h.refOut }

/-- The armed watchdog was last restarted 50 ms ago (R407). -/
def State.wdogExpired (s : State) : Bool :=
  s.awake && s.sw.life.wdog.any fun t => t + usRef s.params 50000 ≤ s.ao.refClk

/-- An entry that entered in frame `born` has stayed across 64 frame boundaries while it was watched (R408). -/
def Sw.stuckSince (s : Sw) (born : Nat) : Bool := max born s.life.watch + 64 ≤ s.fr.frameNo

/-- The forward-progress monitor finds a stuck entry (R408). -/
def Sw.lockedUp (s : Sw) : Bool :=
  (s.life.st == .running || s.life.st == .quiescing || s.life.st == .quiesced)
    && (s.q.req.any (fun e => s.stuckSince e.born) || s.q.io.any (fun e => s.stuckSince e.born)
      || s.q.gth.any (fun e => s.stuckSince e.born)
      || s.home.txns.any (fun t => s.stuckSince t.born && t.await.isEmpty && t.ph != .ack)
      || s.gth.ro.any (fun e => s.stuckSince e.born) || s.syn.nq.any (fun e => s.stuckSince e.born)
      || s.cache.ev.any fun e => s.stuckSince e.born)

/-- sclk is stable: at least 3 edges in each of the last 64 ref_clk cycles (R406). -/
def SclkMon.stable (m : SclkMon) : Bool := 64 ≤ m.good

/-- sclk has failed: fewer than 2 edges in each of the last 4 ref_clk cycles of a region that works (R406). -/
def SclkMon.failed (m : SclkMon) : Bool := 4 ≤ m.slow

/-- The causes 4, 7 and 8 that may be raised in the clk of another assertion (R360): the watchdog that has expired, sclk that has
failed, a stuck entry. -/
def State.besides (s : State) : List (BitVec 4) :=
  if !s.awake then []
  else (if s.wdogExpired then [4] else []) ++ (if s.ao.sclk.failed then [7] else [])
    ++ (if s.sw.lockedUp then [8] else [])

/-- Assert a cold or warm reset (R360, R403). -/
def State.assertReset (s : State) (cause : BitVec 4) (causes : List (BitVec 4)) (reach : BitVec 2) : State :=
  let ao := s.ao.signal cause s.sw.life.st
  let clk := s.sw.fr.clk
  match s.ao.hold with
  | some h =>
    if h.reach.toNat ≤ reach.toNat then { s with ao := { ao with hold := some (h.absorb cause causes reach clk) } }
    else { s with
      ao := ao.refill.hold_ cause causes reach clk (if h.clk == clk then h.besides else []), sw := s.sw.cold ao.refClk false }
  | none =>
    if reach == 0 then { s with ao := ao.refill.hold_ cause causes reach clk s.besides, sw := s.sw.cold ao.refClk false }
    else { s with ao := ao.hold_ cause causes reach clk s.besides, sw := s.sw.warmed }

/-- An asynchronous assertion of a warm reset (R64, R65, R405): the transfers of its clk on the memory port count as not made. -/
def State.assertAsync (s : State) (cause : BitVec 4) : State :=
  (if s.awake then s.onSw Sw.unsend else s).assertReset cause [cause] 1

/-- A cause that may be raised in the clk of the assertion in progress, as it held in that clk (R360). -/
def State.joins (s : State) (cause : BitVec 4) : Bool :=
  s.ao.hold.any fun h => h.clk == s.sw.fr.clk && h.besides.contains cause

/-- The always-on region after cause 1 or 2; the backup domain is initialised when vbak was lost (R360, R361, R405, R417). -/
def AlwaysOn.powerOn (a : AlwaysOn) (vbakLost : Bool) : AlwaysOn :=
  { AlwaysOn.reset with
    counts := if vbakLost then List.replicate 8 0 else a.counts
    mode := if vbakLost then 1 else a.mode
    bakLost := if vbakLost then true else a.bakLost
    tiers := a.tiers.map fun t => { Tier.off with ack := t.ack }
    refClk := a.refClk
    pinLow := a.pinLow }

/-- Assert cause 1 or 2 (R403): whatever was in progress, the whole slice but the backup domain is reset. -/
def State.assertPower (s : State) (cause : BitVec 4) (vbakLost : Bool) : State :=
  let a := s.ao.powerOn vbakLost
  let clk := s.sw.fr.clk
  let hold : Hold := match s.ao.hold with
    | some h =>
      if h.powerOn then { h.absorb cause [cause] 0 clk with since := a.refClk }
      else ⟨cause, 0, h.raised ++ [cause], a.refClk, true, clk, if h.clk == clk then h.besides else [], none⟩
    | none => ⟨cause, 0, s.ao.blockHolds.flatMap (fun b => b.raised) ++ [cause], a.refClk, true, clk, s.besides, none⟩
  { s with ao := { a with hold := some hold }, sw := s.sw.cold a.refClk true }

/-- POWER_ON (R403, R57): rst_por_n falls. -/
def execPowerOn (vbakLost : Bool) (s : State) : Host.Outcome State Fault Refusal :=
  .next ((s.assertPower 1 vbakLost).onAo fun a => { a with pinLow := true })

/-- BROWN_OUT (R57, R403): bor_det high for 2 ref_clk cycles; the backup domain is checked as for cause 1. Whether vbak was lost is a
free value. -/
def execBrownOut (s : State) : Host.Outcome State Fault Refusal := .next (s.assertPower 2 (Config.vbakLost s.ao.refClk))

/-- PIN_RESET (R403): rst_pkg_n falls. -/
def execPinReset (s : State) : Host.Outcome State Fault Refusal :=
  .next ((s.assertAsync 3).onAo fun a => { a with pinLow := true })

/-- CLOCK_FAIL (R58, R406): the sclk monitor watches while the switched region is out of reset and powered. -/
def execClockFail (s : State) : Host.Outcome State Fault Refusal :=
  .next (if (s.awake && s.ao.sclk.failed) || s.joins 7 then s.assertAsync 7 else s)

/-- WATCHDOG (R407). -/
def execWatchdog (s : State) : Host.Outcome State Fault Refusal :=
  .next (if s.wdogExpired || s.joins 4 then s.assertReset 4 [4] 1 else s)

/-- LOCKUP (R408). -/
def execLockup (s : State) : Host.Outcome State Fault Refusal :=
  .next (if (s.awake && s.sw.lockedUp) || s.joins 8 then s.assertReset 8 [8] 1 else s)

/-! ## Release (R360, R361, R405, R406, R410) -/

/-- The always-on side of a release: RST_CAUSE, the counters, LEHR_EPOCH (R332, R360, R361). -/
def AlwaysOn.release (a : AlwaysOn) (h : Hold) : AlwaysOn :=
  { a with
    hold := none, cause := ⟨h.cause, h.reach, 0⟩, counts := countCauses a.mode h.raised a.counts
    counted := if a.mode == 0 then a.counted ++ h.raised else a.counted
    lehrEpoch := if h.powerOn then a.lehrEpoch else a.lehrEpoch + 1 }

/-- The location is recorded as retired (R396, R397). -/
def Rep.retires (r : Rep) (loc : Nat) : Bool := r.retired.any fun p => (List.range p.size).any fun i => p.loc i == loc

/-- The line that the region table places at a location (R142), with its region. -/
def Sw.lineAt (s : Sw) (loc : Nat) : Option (Nat × Region × Nat) :=
  s.pin.regions.findSome? fun e =>
    match (waysOf e.2.ways).findIdx? fun w => w == loc % 16 with
    | some j =>
      let l := e.2.l0 + j * 65536 + (loc / 16 + 65536 - e.2.l0 % 65536) % 65536
      if l < e.2.l0 + e.2.n then some (e.1, e.2, l) else none
    | none => none

/-- The sweep rebuilds a tag entry whose codeword is uncorrectable (R410). -/
def Sw.rebuildTag (s : Sw) (loc : Nat) : Sw :=
  let retired := s.rep.retires loc
  match s.lineAt loc with
  | some (r, g, l) =>
    (s.setTag loc (tagWord (tagOf l) true (g.typ == 0 && Config.rebuiltDirty loc) 0 retired (g.typ.toNat + 1) r false)).onArr
      fun a => a.put loc { a.stored loc with poison := 255 }
  | none => s.setTag loc (withRetired 0 retired)

/-- The sweep checks the tag codewords (R381, R410). -/
def Sw.sweepCodewords (s : Sw) : Sw :=
  (((s.arr.errs.filter fun e => e.st == Store.tag).map fun e => e.cw).eraseDups).foldl (fun s cw =>
    match s.arr.check .tag cw with
    | .clean => s
    | .free => s.onArr fun a => a.takeFree .tag cw
    | .corrected => (s.writeBack .tag cw ⟨s.fr.clk, none⟩).1.telMeta
    | .uncorrectable => ((s.rebuildTag (2 * cw)).rebuildTag (2 * cw + 1)).telUncorr) s

/-- The sweep of one tag entry (R410): a KIND 0 entry is cleared, a dirty line being read and corrected first, on its way to memory. -/
def Sw.sweepEntry (s : Sw) (loc : Nat) : Sw :=
  let t := s.tag loc
  if tKind t != 0 then s
  else
    let s := if tValid t && tDirty t then
        let seq := s.pipe.nextSeq
        (s.onPipe fun q => { q with nextSeq := seq + 1 }).evictRead loc .sweep seq 64 s.fr.clk 2
      else s
    s.setTag loc (clearedTag t)

/-- The warm sweep begins; what it does to every set is told at its start (log 82). It takes 65,536 clk and 2 clk for each dirty line
(R410). -/
def Sw.startSweep (s : Sw) : Sw :=
  let s := s.sweepCodewords
  let dirty := (s.arr.tags.filter fun e => tKind e.2 == 0 && tValid e.2 && tDirty e.2).length
  let s := (s.arr.tags.map (·.1)).foldl Sw.sweepEntry s
  s.onLife fun l => { l with sweep := some (s.fr.clk + 65536 + 2 * dirty) }

/-- The ref_clk part may release: the logic has its supply, the pins are high, 16 cycles have passed, sclk is stable (R406). -/
def AlwaysOn.refReady (a : AlwaysOn) (h : Hold) : Bool :=
  !a.asleep && !a.pinLow && a.sclk.stable && h.since + 16 ≤ a.refClk

/-- A fuse read that has not ended goes on where it stands, its request rising when the outputs are no longer isolated (R59, R417). -/
def Fuse.resume (f : Fuse) (refClk : Nat) : Fuse := if f.done then f else { f with rdReq := true, since := refClk }

/-- The sclk part releases: isolation ends with every output at its reset value, the fuse read begins or goes on, and after a warm
reset the sweep begins (R64, R405, R410, R417). ky_link_up rises with the next clk (R36). -/
def Sw.released (s : Sw) (h : Hold) (refClk : Nat) : Sw :=
  let s := (s.onPort fun _ => { Port.reset with isolate := .none }).onLife fun l => { l with fuse := l.fuse.resume refClk }
  if h.reach == 1 then s.startSweep else s

/-- RESET_RELEASE (R405, R406), as far as the reset in progress has come: a pin that is low rises; then the ref_clk part releases; the
sclk part 2 clk later (log 103). -/
def execResetRelease (s : State) : Host.Outcome State Fault Refusal :=
  .next (match s.ao.hold with
    | none => s
    | some h => match h.refOut with
      | none =>
        if s.ao.pinLow then s.onAo fun a => { a with pinLow := false }
        else if s.ao.refReady h then s.onAo fun a => { a with hold := some { h with refOut := some s.sw.fr.clk } }
        else s
      | some c =>
        if c + 2 ≤ s.sw.fr.clk then { s with ao := s.ao.release h, sw := s.sw.released h s.ao.refClk } else s)

/-- WARM_SWEEP_END (R410): the sweep has had its clk, and every dirty line has entered the eviction buffer. -/
def execWarmSweepEnd (s : State) : Host.Outcome State Fault Refusal :=
  .next (s.run fun _ _ sw =>
    match sw.life.sweep with
    | some c =>
      if c ≤ sw.fr.clk && !(sw.cache.evWait.any fun e => e.why == .sweep) then
        (sw.onLife fun l => { l with sweep := none }).resumeWalk
      else sw
    | none => sw)

/-! ## The fuse read (R59, R386 to R388) -/

/-- The fields of a fuse word are in range (R387, R388): VALID, even parity, zeros, INDEX unless BAD, and SPARE. -/
def fuseOk (w : BitVec 32) : Bool :=
  let kind := fldN w 1 1
  bitAt w 0 && (sumNat ((List.range 32).map fun i => (bitAt w i).toNat)) % 2 == 0 && fldN w 26 5 == 0
    && fldN w 22 3 < (if kind == 0 then 8 else 4) && (bitAt w 25 || fldN w 13 9 < (if kind == 0 then 512 else 36))

/-- Apply one fuse word to the repair map (R388). -/
def Rep.fuse (r : Rep) (w : BitVec 32) : Rep :=
  if !fuseOk w then r
  else
    let p : Place := ⟨fldN w 2 2, fldN w 4 4, fldN w 8 5, fldN w 1 1, fldN w 13 9⟩
    let sp := fldN w 22 3
    if bitAt w 25 then (if r.bad.contains { p with index := sp } then r else { r with bad := r.bad ++ [{ p with index := sp }] })
    else if r.spareTaken p sp then r
    else { r.release p with map := (r.release p).map ++ [(p, sp)] }

/-- A word has been taken: fuse_rd_req falls, and the next word follows (R59, R386). -/
def Fuse.next (f : Fuse) (refClk : Nat) : Fuse :=
  let f := { f with rdReq := false, since := refClk }
  if f.addr == 2047 then { f with done := true } else { f with addr := f.addr + 1 }

/-- FUSE_WORD (R59): fuse_ack takes one word while fuse_rd_req is 1 on the port. -/
def execFuseWord (data : BitVec 32) (s : State) : Host.Outcome State Fault Refusal :=
  .next (s.run fun _ ao sw =>
    if sw.life.fuse.done || !sw.life.fuse.rdReq || sw.port.isolate != .none then sw
    else (sw.onRep fun r => r.fuse data).onLife fun l => { l with fuse := l.fuse.next ao.refClk })

/-- FUSE_TIMEOUT (R59, R386): no acknowledgement within 1,024 ref_clk cycles of the request; the slice enters SAFE, unless it has
fenced (R23). -/
def execFuseTimeout (s : State) : Host.Outcome State Fault Refusal :=
  .next (s.run fun _ ao sw =>
    if !sw.life.fuse.done && sw.life.fuse.rdReq && sw.life.fuse.since + 1024 ≤ ao.refClk then
      sw.onLife fun l => { l with
        st := if l.st == .fenced then .fenced else .safe, safeCause := 2
        fuse := { l.fuse with rdReq := false, since := ao.refClk, done := true } }
    else sw)

/-! ## The Lehr leaves reset (R321, R324, R386) -/

/-- The Lehr may leave reset: the fuse read has ended and every tier has been filled, or the read timed out. -/
def Life.lehrReady (l : Life) : Bool := !l.lehrUp && l.fuse.done && (l.stuck || l.filled == 15)

/-- The firmware that the SRAM holds still matches DIGEST (R324). -/
def Fw.intact (f : Fw) : Bool := f.loaded && f.bodyHash f.bodyLen == f.digest

/-- The boot ROM starts (R321, R324): after a warm reset it restarts intact firmware, or enters SAFE; a slice that has fenced stays
FENCED (R23). -/
def Sw.lehrRelease (s : Sw) (refClk : Nat) : Sw :=
  if !s.life.lehrReady then s
  else
    let s := s.onLife fun l => { l with lehrUp := true }
    if s.life.stuck || !s.life.warm then s
    else if s.life.fw.intact then s.startFirmware refClk
    else s.enterSafe

/-- LEHR_RELEASE. -/
def execLehrRelease (s : State) : Host.Outcome State Fault Refusal := .next (s.run fun _ ao sw => sw.lehrRelease ao.refClk)

end Sys2Proof.Machine
end

