-- ==== Sys2Proof/Machine/BlockReset.lean ====
section
/-! DEFINITION. Block resets of single units, their release, and software resets coming due (18, R414 to R416; 11, R282; 17, R399;
19, R440; 14, R343; 15, R360 to R362). -/
namespace Sys2Proof.Machine

/-! ## Requests answered with ABORTED (R414) -/

/-- A response that answers with ABORTED in place of the result. -/
def Resp.aborted (r : Resp) (now : Nat) : Resp :=
  let r := { r with due := now, flight := none, waitEv := false, exact := false }
  match r.body with
  | .rsp m => { r with body := .rsp { m with op := rERROR, status := stABORTED, state := 0 } }
  | .dat m => { r with body := .rsp ⟨rERROR, m.txn, m.tgt, m.src, stABORTED, 0⟩ }
  | .io m => { r with body := .io { m with status := ioABORTED, payload := 0 } }
  | .self id _ _ _ => { r with body := .self id stABORTED false none }

/-- A flight has not reached UPD (R74: c18). -/
def Sw.beforeUpd (s : Sw) (f : Flight) : Bool := s.fr.clk < f.acc + f.delay + 18

/-- A write that is now the newest of its line and has no array access gets one: that of a later, cancelled write stood for it
(R79). A location without a write left has its tag entry put back. -/
def Sw.restoreAccess (s : Sw) (loc : Nat) : Sw :=
  match s.newest loc with
  | none =>
    match s.pipe.undo.find? fun e => e.1 == loc with
    | some e => (s.setTag loc e.2).onPipe fun q => { q with undo := sdel q.undo loc }
    | none => s
  | some w =>
    if w.at_.isSome || s.pipe.acc.any (fun a => a.write && a.ord == w.ord && a.loc == some loc) then s
    else
      let at_ := match s.pipe.flights.find? fun f => some f.id == w.flight with
        | some f => max s.fr.clk (f.acc + f.delay + 20)
        | none => s.fr.clk
      s.access ⟨pairOf loc, at_, s.rankOf w.ord, w.ord, w.flight, 0, true, .plain, 0, some loc, none⟩

/-- An accepted request that has not come to RES is answered with ABORTED (R414). -/
def Sw.abortStaged (s : Sw) (p : Params) (x : Staged) : Sw :=
  let now := s.fr.clk
  (match x.cand with
    | .req e => s.answer p (plainAns e.r.txn e.r.src e.r.op e.self now) rERROR stABORTED 0
    | .gth e => s.answer p (plainAns e.g.txn e.g.src 1 e.fwd now) rERROR stABORTED 0
    | .io e => s.answerIo p e.f now ioABORTED 0 (some (e.f.src, x.acc))).endStaged x

/-- Some accepted requests have no effect and are answered with ABORTED (R414). -/
def Sw.abortFlights (s : Sw) (p : Params) (ids : List Nat) : Sw :=
  let mine (f : Option Nat) : Bool := f.any fun id => ids.contains id
  let s := (s.pipe.staged.filter fun x => ids.contains x.id && x.open_ p).foldl (fun s x => s.abortStaged p x) s
  let locs := ((s.pipe.wr.filter fun w => mine w.flight).map fun w => w.loc).eraseDups
  let s := s.onPipe fun q => { q with
    wr := q.wr.filter fun w => !mine w.flight
    acc := q.acc.filter fun a => !mine a.flight
    uses := q.uses.filter fun u => !ids.contains u.flight
    parity := q.parity.filter fun e => !ids.contains e.1
    rsp := q.rsp.map fun r => if mine r.flight then r.aborted s.fr.clk else r
    flights := q.flights.filter fun f => !ids.contains f.id }
  let s := s.onCache fun c => { c with evWait := c.evWait.filter fun e => !(e.why == .noAlloc && mine e.flight) }
  let s := s.onGth fun g => { g with ro := g.ro.filter fun e => !ids.contains e.id }
  (locs.foldl Sw.restoreAccess s).recountArmed

/-! ## Units -/

/-- The answers to some requests of the slice's own have nothing left to do; those that have not left are dropped. -/
def GthSt.spend (g : GthSt) (mine : SelfOwner → Bool) : GthSt :=
  { g with self := (g.self.filter fun q => !mine q.owner || q.st == .waitAns).map fun q =>
      if mine q.owner then { q with owner := .spent } else q }

/-- An output of a close. -/
def SelfOwner.ofClose : SelfOwner → Bool
  | .readout _ => true
  | .fwd _ => true
  | _ => false

/-- A notify. -/
def SelfOwner.ofNotify : SelfOwner → Bool
  | .notify _ => true
  | _ => false

/-- Unit 0, Gather (R415): the outputs of closes that are not yet written are lost. -/
def Sw.resetGather (s : Sw) (p : Params) : Sw :=
  let queued := s.q.gth ++ s.q.direct.toList
  let s := if s.q.direct.isSome then s.owe .gth 1 else s
  let s := queued.foldl (fun s e => match e.fwd with
    | none => s.answer p (plainAns e.g.txn e.g.src 1 none (s.fr.clk + 1)) rERROR stABORTED 0
    | some id => s.dropSelf id) s
  let s := s.onQ fun q => { q with gth := [], direct := none }
  let s := s.abortFlights p ((s.pipe.flights.filter fun f => f.region.isSome && s.beforeUpd f).map fun f => f.id)
  (s.onPipe fun q => { q with adder := 0 }).onGth fun g => { g.spend SelfOwner.ofClose with ro := [] }

/-- The request of a transaction is an atomic. -/
def Txn.isAtomic (t : Txn) : Bool := t.kind == .req && (kindOf t.r.op).any (·.isAtomic)

/-- Unit 1, Atomics (R415): those before UPD are answered with ABORTED, those that await recall answers or memory data once
these have come. -/
def Sw.resetAtomics (s : Sw) (p : Params) : Sw :=
  let ids := (s.pipe.flights.filter fun f => f.atomic && match s.home.txns.find? fun t => t.seq == f.id with
    | some t => t.isAtomic && t.ph == .resp && t.got.isNone && s.fr.clk < t.last + 18
    | none => s.beforeUpd f).map fun f => f.id
  let n := (s.pipe.rsp.filter fun r => r.flight.any fun id => ids.contains id).length
    + (s.pipe.staged.filter fun x => ids.contains x.id && x.out.isNone).length
  ((s.abortFlights p ids).count 5 7 n none).onHome fun h => { h with
    txns := updAll (fun t => t.isAtomic && (t.ph == .snoop || t.ph == .mem)) (fun t => { t with aborted := true }) h.txns }

/-- An access to the sync window that is answered already, its answer not having left. -/
def Resp.synced (r : Resp) (p : Params) : Bool := r.apt.isNone && r.windowed p

/-- Unit 2, Sync (R282): window accesses in flight, those that have acted included, complete with ABORTED. -/
def Sw.resetSync (s : Sw) (p : Params) : Sw :=
  let s := s.onPipe fun q => { q with rsp := q.rsp.map fun r => if r.synced p then r.aborted r.due else r }
  let s := s.pipe.syn.foldl (fun s a => s.answerIo p a.f (max s.fr.clk (a.acc + 14)) ioABORTED 0 none) s
  let s := s.onPipe fun q => { q with syn := [] }
  let s := s.onSyn fun y => { y with
    obj := (y.obj.map fun e => (e.1, e.2.reset)).filter (fun e => e.2 != SyncObj.zero), nq := [] }
  s.onGth fun g => g.spend SelfOwner.ofNotify

/-- The fault log and the write-back queue are emptied (R399). -/
def Sw.emptyRepairs (s : Sw) : Sw :=
  ((s.onPipe fun q => { q with acc := q.acc.filter fun a => match a.job with
    | .wback _ _ => false
    | _ => true }).onArr fun a => { a with verify := [] }).onRep fun r => { r with log := [], lastRemoved := none }

/-- Unit 3, Marver (R399). -/
def Sw.resetMarver (s : Sw) : Sw := s.emptyRepairs.onRep Rep.restart

/-- Unit 6, Directory and home (R415, R416). Requests that were not performed are answered with ABORTED. -/
def Sw.resetHome (s : Sw) (p : Params) : Sw :=
  let open_ := s.home.txns.filter fun t => t.kind == .req && (t.ph == .snoop || t.ph == .mem || t.ph == .memWr)
  let s := open_.foldl (fun s t =>
    s.answer p (plainAns t.r.txn t.r.src t.r.op t.self (s.fr.clk + 1)) rERROR stABORTED 0) s
  let s := (s.home.txns.filter fun t => (t.ph == .mem || t.reading) && t.got.isNone).foldl (fun s t => match t.way with
    | some loc => (s.setTag loc (clearedTag (s.tag loc))).onPipe fun q => { q with undo := sdel q.undo loc }
    | none => s) s
  let bind (c : RdCause) : Bool := match c with
    | .bind _ => true
    | .txn _ => false
  let lost := s.mp.out.filter fun o => !bind o.rd.cause
  let s := s.onMp fun m => { m with
    wait := m.wait.filter fun r => bind r.cause
    presented := m.presented.filter fun r => bind r.2.cause
    out := m.out.filter fun o => bind o.rd.cause
    stale := m.stale ++ lost.map fun o => (o.tag, if o.beat0.isSome then 1 else 2) }
  let s := s.onPipe fun q => { q with
    rsp := q.rsp.map fun r => { r with txn := none }
    wr := q.wr.map fun w => { w with txn := none }
    flights := q.flights.map fun f => { f with txn := none } }
  ((s.onCache fun c => { c with
    side := c.side.filter fun e => e.ln.isSome, evWait := c.evWait.map fun e => { e with txn := none } }).onHome fun _ => Home.reset).onArr
    fun a => { a with dir := [], errs := a.errs.filter fun e => e.st != Store.dir || e.hard }

/-- The retirement list sets RETIRED again in zero-filled entries (R386, R397). -/
def Sw.replay (s : Sw) (places : List Place) : Sw :=
  places.foldl (fun s pl => (List.range pl.size).foldl (fun s i =>
    s.setTag (pl.loc i) (withRetired (s.tag (pl.loc i)) true)) s) s

/-- A walk whose region or template an Array reset removes. -/
def WalkKind.regional : WalkKind → Bool
  | .bind _ => true
  | .unbind _ => true
  | .save _ _ _ _ _ _ => true
  | .restore _ _ _ _ => true
  | .drain _ => true
  | .part _ _ _ _ => false
  | .flush _ _ _ _ => false
  | .move _ _ => false
  | .retire _ => false

/-- Commands on regions and templates that run when the regions go: they end with WRONG_STATE (log 72). -/
def Sw.endRegional (s : Sw) : Sw :=
  let s := s.gth.tmplNext.foldl (fun s e => s.finish e.1 ⟨cWRONG_STATE, 0, 0⟩) (s.onGth fun g => { g with
    tmplNext := [], self := g.self.filter fun q => match q.owner with
      | .image _ _ => q.st == .waitAns
      | _ => true })
  match s.walk with
  | some w =>
    if w.kind.regional then
      let s := (s.onWalk fun _ => none).onMp fun m => { m with
        wait := m.wait.filter fun r => match r.cause with
          | .bind _ => false
          | .txn _ => true }
      match w.ch with
      | some n => s.finish n ⟨cWRONG_STATE, 0, 0⟩
      | none => s
    else s
  | none => s

/-- Unit 7, Array (R415, R416). -/
def Sw.resetArray (s : Sw) (p : Params) : Sw :=
  let s := s.abortFlights p ((s.pipe.flights.filter s.beforeUpd).map fun f => f.id)
  let s := s.onPipe fun q => { q with wr := [], acc := [], undo := [], uses := [] }
  let s := s.onCache fun c => { c with evWait := c.evWait.map fun e => { e with read := false, taken := false, loc := none } }
  let s := s.onArr fun a => { a with
    data := [], tags := [], mword := [], lost := [], errs := a.errs.filter fun e => e.st == Store.dir || e.hard }
  let s := s.onHome fun h => { h with txns := h.txns.map fun t => { t with way := none } }
  let s := s.endRegional
  let s := (s.onPin fun q => { q with regions := [] }).onGth fun g => { g with tmpl := [], armed := [] }
  (s.emptyRepairs).replay s.rep.retired

/-- Window accesses to some registers that have not acted are answered with ABORTED and have no effect (R353, R414). -/
def Sw.abortWindow (s : Sw) (p : Params) (lo hi : Nat) : Sw :=
  let mine (a : WinAcc) : Bool := lo ≤ a.off && a.off < hi
  let gone := s.pipe.win.filter mine
  (gone.foldl (fun s a => s.answerIo p a.f (max s.fr.clk (a.acc + 14)) ioABORTED 0 none) s).onPipe fun q => { q with
    win := q.win.filter fun a => !mine a }

/-- What a block reset of a unit clears (R415); held trace records nothing and held counters count nothing (R440). -/
def Sw.resetUnit (s : Sw) (p : Params) (unit : BitVec 3) : Sw :=
  match unit.toNat with
  | 0 => s.resetGather p
  | 1 => s.resetAtomics p
  | 2 => s.resetSync p
  | 3 => s.resetMarver
  | 4 => (s.onTrc fun t => { t.clear with held := true }).abortWindow p 0x6000 0x7000
  | 5 => (s.onPmc fun q => { q.clear with held := true }).abortWindow p 0x4000 0x6000
  | 6 => s.resetHome p
  | _ => s.resetArray p

/-! ## Assertion and release (R360, R361, R414) -/

/-- Causes that the reset in progress absorbs (R360): they are counted at its release. -/
def AlwaysOn.absorb (a : AlwaysOn) (causes : List (BitVec 4)) : AlwaysOn :=
  match a.hold with
  | some h => { a with hold := some { h with raised := h.raised ++ causes } }
  | none => { a with blockHolds := match a.blockHolds with
      | [] => []
      | b :: l => { b with raised := b.raised ++ causes } :: l }

/-- Begin the block reset of a unit: the cause that it records, and those that its release counts. -/
def State.beginBlock (s : State) (cause : BitVec 4) (raised : List (BitVec 4)) (unit : BitVec 3) : State :=
  { s with
    ao := { s.ao with blockHolds := s.ao.blockHolds ++
      [⟨unit, cause, s.ao.refClk + 16, s.sw.fr.clk + (if unit == 7 then 393216 else 0), raised⟩] }
    sw := s.sw.resetUnit s.params unit }

/-- Assert block resets of some units together (R360, R414): all of them record the lowest cause, and each cause is counted once, at
the first release. During any reset they are absorbed. -/
def State.assertBlocks (s : State) (cause : BitVec 4) (causes : List (BitVec 4)) (units : List (BitVec 3)) : State :=
  if s.ao.hold.isSome || !s.ao.blockHolds.isEmpty then s.onAo fun a => a.absorb causes
  else match units with
    | [] => s
    | u :: l => l.foldl (fun s u => s.beginBlock cause [] u) (s.beginBlock cause causes u)

/-- The software resets that are performed together (R360, R362): the widest reach, and of that reach the lowest cause. -/
def SwReset.widest (rs : List SwReset) : Option SwReset := minBy (fun (r : SwReset) => r.reach.toNat * 16 + r.cause.toNat) rs

/-- SOFTWARE_RESET_RAISE (R343, R362): 2 µs have passed since the first request; requests that have joined it are performed
with it. -/
def State.raiseSoftware (s : State) : State :=
  let rs := s.ao.swReset
  if !(rs.any fun r => r.due != 0 && r.due ≤ s.ao.refClk) then s
  else
    let s' := s.onAo fun a => { a with swReset := [] }
    match SwReset.widest rs with
    | none => s
    | some w =>
      if w.reach.toNat ≤ 1 then s'.assertReset w.cause (rs.map fun r => r.cause) w.reach
      else s'.assertBlocks w.cause (rs.map fun r => r.cause) (rs.map fun r => r.unit).eraseDups

/-- SOFTWARE_RESET_RAISE. -/
def execSoftwareResetRaise (s : State) : Host.Outcome State Fault Refusal := .next s.raiseSoftware

/-- The hold of a unit may end (R414, R415). -/
def BlockHold.ends (b : BlockHold) (ao : AlwaysOn) (clk : Nat) : Bool := b.due ≤ ao.refClk && b.dueClk ≤ clk

/-- The always-on side of a block release (R360, R361). -/
def AlwaysOn.releaseBlock (a : AlwaysOn) (b : BlockHold) : AlwaysOn :=
  { a with
    blockHolds := dropFirst (fun x => x.unit == b.unit) a.blockHolds
    cause := ⟨b.cause, 2, b.unit⟩, counts := countCauses a.mode b.raised a.counts
    counted := if a.mode == 0 then a.counted ++ b.raised else a.counted }

/-- Trace and counters are at work again from their reset values (R440). -/
def Sw.afterBlock (s : Sw) (unit : BitVec 3) : Sw :=
  match unit.toNat with
  | 4 => s.onTrc Trc.clear
  | 5 => s.onPmc Pmc.clear
  | _ => s

/-- BLOCK_RESET_RELEASE. -/
def execBlockResetRelease (unit : BitVec 3) (s : State) : Host.Outcome State Fault Refusal :=
  .next (s.runAo fun _ ao sw =>
    match ao.blockHolds.find? fun b => b.unit == unit with
    | some b => if b.ends ao sw.fr.clk then (ao.releaseBlock b, sw.afterBlock unit) else (ao, sw)
    | none => (ao, sw))

end Sys2Proof.Machine
end

