-- ==== Sys2Proof/Machine/MemPort.lean ====
section
/-! DEFINITION. The memory port: read choice and transfer, read data, write beats and completions, the throttle filter
(02, R48 to R51; 13, R309 to R311; 05, R123; 18, R411). -/
namespace Sys2Proof.Machine

/-! ## Reads (R48, R49, R309, R311) -/

/-- A read may be chosen: no write of its line is outstanding (R49), it is presented at c9 of its request at the earliest (R84),
and its transaction has not been answered by the drain of a dead domain (R206). -/
def Sw.readOk (s : Sw) (r : MpRead) : Bool :=
  (s.evCopies r.line).isEmpty && match r.cause with
    | .txn i => (s.txn i).any fun t => t.acc + 9 ≤ s.fr.clk
    | .bind _ => true

/-- choose_read of R311 over the reads that may be chosen: the read and the new value of rd_ptr. -/
def Sw.chooseRead (s : Sw) : Option (MpRead × Nat) :=
  let can := s.mp.wait.filter s.readOk
  let demand := can.filter fun r => r.kind == 0
  let first (l : List MpRead) : Option (MpRead × Nat) := (minBy (fun (r : MpRead) => r.ord) l).map fun r => (r, s.mp.rdPtr)
  let dl := demand.filter fun r => r.df.isSome && (s.cls r.cls).deadline
  match minBy (fun (r : MpRead) => ((r.df.getD 0).toNat * 64 + r.cls) * 2 ^ 64 + r.ord) dl with
  | some r => some (r, s.mp.rdPtr)
  | none =>
    match firstCyclic s.mp.rdPtr fun c => sget 0 s.mp.rdGranted c < sget 0 s.mp.effMin c && demand.any fun r => r.cls == c with
    | some c => (minBy (fun (r : MpRead) => r.ord) (demand.filter fun r => r.cls == c)).map fun r => (r, (c + 1) % 64)
    | none =>
      (((first demand).orElse fun _ => first (can.filter fun r => r.kind == 1)).orElse
        fun _ => first (can.filter fun r => r.kind == 2))

/-- A read tag of the 288 that is free (R48, R411). -/
def Sw.readTag (s : Sw) : Option Nat :=
  s.freeNumber 0 288 fun t => s.mp.out.any (fun o => o.tag == t) || s.mp.stale.any fun o => o.1 == t

/-- A read is chosen when none is presented, RB is at least 128 and a tag is free. -/
def Sw.presentRead (s : Sw) : Sw :=
  if s.mp.presented.isSome || s.mp.rb < 128 then s
  else match s.chooseRead, s.readTag with
    | some (r, ptr), some tag =>
      s.onMp fun m => { m with
        wait := dropFirst (fun x => x == r) m.wait
        presented := some (tag, r)
        rdPtr := ptr
        rdGranted := if r.kind == 0 then sset 0 m.rdGranted r.cls (sget 0 m.rdGranted r.cls + 1) else m.rdGranted }
    | _, _ => s

/-- What a memory read shows to filters (R430). -/
def Sw.readWho (s : Sw) (r : MpRead) : Who := ⟨r.src, r.cls, r.priv, s.map.addr r.line⟩

/-- MP_READ_ISSUE on the switched region: the presented read transfers when the controller is ready. -/
def Sw.readIssue (s : Sw) (ready : Bool) : Sw :=
  if s.life.st == .fenced then s
  else
    let s := s.presentRead
    match s.mp.presented with
    | none => s
    | some (tag, r) =>
      if !ready then s.count 8 5 1 none
      else
        let w := s.readWho r
        let s := s.onMp fun m => { m with presented := none, rdPin := some (tag, w.laddr), rb := m.rb - 128, out := m.out ++ [⟨tag, r, none⟩] }
        let s := s.count 8 (match r.kind with
          | 0 => 0
          | 1 => 2
          | _ => 1) 1 (some w)
        s.traceReq 6 w ((tag <<< 52) ||| ((r.cls % 64) <<< 72) ||| (w.laddr.toNat <<< 80))

/-- MP_READ_ISSUE. -/
def execMpReadIssue (ready : Bool) (s : State) : Host.Outcome State Fault Refusal :=
  .next (s.run fun _ _ sw => sw.readIssue ready)

/-! ## Read data (R48, R50, R83, R411) -/

/-- Poison bits of a beat after R50: its own bits, all four with mp_rd_err, and the group of each byte that fails parity. -/
def beatPoison (data : BitVec 512) (par : BitVec 64) (poison : BitVec 4) (err : Bool) : BitVec 4 :=
  let bad := groupsOf (badBytes 64 data.toNat par.toNat)
  if err then 15 else poison ||| fld bad 0 4

/-- A complete line of read data reaches its cause (R83, R143). -/
def Sw.readDone (s : Sw) (p : Params) (r : MpRead) (ln : Line) : Sw :=
  if s.domainDown then s
  else match r.cause with
    | .txn i =>
      match s.txn i with
      | none => s
      | some t =>
        let (s, t) := s.fillArrived p t ln (t.resolve).1
        (s.putTxn t).closeDone
    | .bind l =>
      match s.regionOf l with
      | some (n, g) => s.bindWrite n g l ln false
      | none => s

/-- One beat of read data; none when the controller breaks the order of R48. -/
def Sw.readBeat (s : Sw) (p : Params) (tag : Nat) (beat : Bool) (data : BitVec 512) (par : BitVec 64) (poison : BitVec 4)
    (err : Bool) : Option Sw :=
  match s.mp.out.find? fun o => o.tag == tag with
  | none => some (s.raise 8 tag)
  | some o =>
    let bad := (badBytes 64 data.toNat par.toNat).length
    let s := if bad > 0 then s.telParity bad else s
    let s := if err || poison != 0 then s.count 8 6 1 (some (s.readWho o.rd)) else s
    let pz := beatPoison data par poison err
    match beat, o.beat0 with
    | false, none => some (s.onMp fun m => { m with
        out := updFirst (fun x => x.tag == tag) (fun x => { x with beat0 := some (data, pz) }) m.out })
    | true, some (d0, p0) =>
      let s := s.onMp fun m => { m with out := dropFirst (fun x => x.tag == tag) m.out }
      some (s.readDone p o.rd ⟨data ++ d0, pz ++ p0, 0⟩)
    | _, _ => none

/-- A beat of a read that was outstanding at a reset is discarded; its tag is free once both beats have come (R411). -/
def Mp.staleBeat (m : Mp) (tag : Nat) : Mp :=
  { m with stale := (updFirst (fun x => x.1 == tag) (fun x => (x.1, x.2 - 1)) m.stale).filter fun x => x.2 != 0 }

/-- The tag belongs to a read that was outstanding at a reset. -/
def Mp.isStale (m : Mp) (tag : Nat) : Bool := m.stale.any fun x => x.1 == tag

/-- MP_READ_BEAT. -/
def execMpReadBeat (tag : BitVec 9) (beat : Bool) (data : BitVec 512) (par : BitVec 64) (poison : BitVec 4) (err : Bool)
    (s : State) : Host.Outcome State Fault Refusal :=
  if s.sw.mp.isStale tag.toNat then .next (s.always fun _ ao sw => (ao, sw.onMp fun m => m.staleBeat tag.toNat))
  else if !s.awake then .next s
  else
    match s.sw.readBeat s.params tag.toNat beat data par poison err with
    | none => .fault .unspecified
    | some sw => .next (s.run fun _ _ _ => sw)

/-! ## Writes (R49, R121, R123, R309, R310) -/

/-- A write tag of the 64 that is free (R49, R411). -/
def Sw.writeTag (s : Sw) : Option Nat :=
  s.freeNumber 1 64 fun t => s.cache.ev.any (fun e => e.st == .written && e.tag == t) || s.mp.staleWr.contains t

/-- A line of the warm sweep waits until the lines that the buffer held at the reset have been written (R411). -/
def Sw.sweepWaits (s : Sw) (e : EvEnt) : Bool := e.why == .sweep && s.cache.ev.any fun x => x.why != .sweep

/-- The next line to write: in entry order, unless an earlier write of the same line is outstanding (R123, R310). -/
def Sw.nextWrite (s : Sw) : Option EvEnt :=
  s.cache.ev.find? fun e =>
    e.st == .waiting && !s.sweepWaits e && !(s.cache.ev.any fun x => x.st == .written && x.line == e.line)

/-- One beat of a write as it stands on the port (R47, R49). -/
def EvEnt.beat (e : EvEnt) (laddr : BitVec 45) (k : Bool) : MpBeat :=
  let d : BitVec 512 := if k then fld e.ln.data 512 512 else fld e.ln.data 0 512
  ⟨laddr, BitVec.ofNat 6 e.tag, k, d, BitVec.ofNat 64 (parityOf 64 d.toNat), if k then fld e.ln.poison 4 4 else fld e.ln.poison 0 4⟩

/-- Show a beat on the write port. -/
def Sw.driveBeat (s : Sw) (e : EvEnt) (laddr : BitVec 45) (k : Bool) : Sw :=
  s.onMp fun m => { m with wrPin := m.wrPin ++ [e.beat laddr k] }

/-- Beat 0 of a line transfers: the line has its tag, WB falls by 128, and the record and count are made (R309, R429, R436). -/
def Sw.beat0 (s : Sw) (p : Params) (e : EvEnt) (tag : Nat) : Sw × EvEnt :=
  let e := { e with tag := tag }
  let laddr := s.map.addr e.line
  let s := s.onCache fun c => { c with ev := updFirst (fun x => x.ord == e.ord) (fun _ => e) c.ev }
  let s := (s.onMp fun m => { m with wb := m.wb - 128, wrHalf := some (e, laddr) }).count 8 3 1 e.who
  let w : Who := e.who.getD ⟨p.sliceRid, 64, 3, laddr⟩
  ((s.traceReq 6 w ((tag <<< 52) ||| (1 <<< 61) ||| ((e.cls % 64) <<< 72) ||| (laddr.toNat <<< 80))).driveBeat e laddr false, e)

/-- Beat 1 of the line under way transfers: its write is outstanding. -/
def Sw.beat1 (s : Sw) (e : EvEnt) (laddr : BitVec 45) : Sw :=
  ((s.onMp fun m => { m with wrHalf := none }).onCache fun c => { c with
    ev := updFirst (fun x => x.ord == e.ord) (fun x => { x with st := .written }) c.ev }).driveBeat e laddr true

/-- MP_WRITE_ISSUE on the switched region: `ready0` and `ready1` are mp_wr_ready when beat 0 and beat 1 are presented. -/
def Sw.writeIssue (s : Sw) (p : Params) (ready0 ready1 : Bool) : Sw :=
  if s.life.st == .fenced then s
  else match s.mp.wrHalf with
    | some (e, laddr) => if ready1 then s.beat1 e laddr else s
    | none =>
      if s.mp.wb < 128 || !ready0 then s
      else match s.nextWrite, s.writeTag with
        | some e, some tag =>
          let (s, e) := s.beat0 p e tag
          if ready1 then s.beat1 e (s.map.addr e.line) else s
        | _, _ => s

/-- MP_WRITE_ISSUE. -/
def execMpWriteIssue (ready0 ready1 : Bool) (s : State) : Host.Outcome State Fault Refusal :=
  .next (s.run fun p _ sw => sw.writeIssue p ready0 ready1)

/-- A write completion on the switched region (R49, R50, R121). -/
def Sw.writeComplete (s : Sw) (p : Params) (tag : Nat) : Sw :=
  if s.cache.ev.any fun e => e.st == .written && e.tag == tag then
    let s := s.onCache fun c => { c with ev := dropFirst (fun e => e.st == .written && e.tag == tag) c.ev }
    if s.domainDown then s else (s.memWrDone p).closeDone
  else s.raise 8 (tag + 512)

/-- MP_WRITE_COMPLETE. -/
def execMpWriteComplete (tag : BitVec 6) (s : State) : Host.Outcome State Fault Refusal :=
  if s.sw.mp.staleWr.contains tag.toNat then
    .next (s.always fun _ ao sw => (ao, sw.onMp fun m => { m with staleWr := m.staleWr.filter fun t => t != tag.toNat }))
  else if s.awake then .next (s.run fun p _ sw => sw.writeComplete p tag.toNat)
  else .next (s.always fun _ ao sw => (ao, sw.onCache fun c => { c with
    ev := dropFirst (fun e => e.st == .written && e.tag == tag.toNat) c.ev }))

/-! ## The throttle (R51) -/

/-- MP_THROTTLE_FILTER: a level sampled in 8 consecutive clk becomes the filtered level. -/
def execMpThrottleFilter (level : BitVec 2) (s : State) : Host.Outcome State Fault Refusal :=
  .next (s.run fun _ _ sw => sw.onMp fun m => { m with filtered := level })

end Sys2Proof.Machine
end

