-- ==== Sys2Proof/Machine/Power.lean ====
section
/-! DEFINITION. Tier power and zero fills, logic power-off and wake (18, R418 to R425; 17, R389, R397; 02, R55, R56; 16, R376;
19, R440). -/
namespace Sys2Proof.Machine

/-! ## Tier transitions (R55, R419, R423) -/

/-- One tier. -/
def AlwaysOn.tier (a : AlwaysOn) (i : Nat) : Tier := a.tiers.getD i Tier.off

/-- Update one tier. -/
def AlwaysOn.onTier (a : AlwaysOn) (i : Nat) (f : Tier → Tier) : AlwaysOn := { a with tiers := a.tiers.set i (f (a.tier i)) }

/-- A power-up of the tier waits to start (R55: the acknowledgement must be low). -/
def AlwaysOn.waitsUp (a : AlwaysOn) (i : Nat) : Bool := (a.tier i).st == .off && !bitAt a.tierOff i && !(a.tier i).ack

/-- A power-down of the tier waits to start. -/
def AlwaysOn.waitsDown (a : AlwaysOn) (i : Nat) : Bool := (a.tier i).st == .on && bitAt a.tierOff i

/-- The tier whose transition may start now: one at a time, 16 µs apart, in ascending tier number. -/
def AlwaysOn.nextTransition (a : AlwaysOn) (p : Params) : Option Nat :=
  if a.moving.isSome || a.asleep || a.lastTransition.any (fun t => a.refClk < t + usRef p 16) then none
  else firstBelow 4 fun i => a.waitsUp i || a.waitsDown i

/-- Start the waiting transition of a tier. -/
def AlwaysOn.startTransition (a : AlwaysOn) (i : Nat) : AlwaysOn :=
  let up := a.waitsUp i
  { a.onTier i (fun t =>
      if up then { t with st := .poweringUp, req := true, groups := 0, ready := false, fillAt := none }
      else { t with st := .poweringDown, stamp := a.refClk, ready := false, fillAt := none }) with
    moving := some i, lastTransition := some a.refClk }

/-- TIER_TRANSITION_START. -/
def execTierTransitionStart (tier : BitVec 2) (s : State) : Host.Outcome State Fault Refusal :=
  .next (s.always fun p ao sw =>
    (if ao.nextTransition p == some tier.toNat then ao.startTransition tier.toNat else ao, sw))

/-- The tier is on its way up. -/
def Tier.rising (t : Tier) : Bool := (t.st == .poweringUp || t.st == .pendingOff) && !t.ready

/-- The tier is on its way down. -/
def Tier.falling (t : Tier) : Bool := t.st == .poweringDown || t.st == .pendingReenable

/-- The switch follows pwr_tier_req: a rise times the bank groups, a fall ends a power-down (R55, R419). -/
def AlwaysOn.ackTier (a : AlwaysOn) (i : Nat) (level : Bool) : AlwaysOn :=
  let t := a.tier i
  if level != t.req || level == t.ack then a
  else if level then a.onTier i fun t => { t with ack := true, stamp := a.refClk }
  else if t.falling then { a.onTier i (fun _ => Tier.off) with moving := none }
  else a.onTier i fun t => { t with ack := false }

/-- PWR_TIER_ACK. -/
def execPwrTierAck (tier : BitVec 2) (level : Bool) (s : State) : Host.Outcome State Fault Refusal :=
  .next (s.always fun _ ao sw => (ao.ackTier tier.toNat level, sw))

/-- One bank group at its 2-µs step: group g is enabled 2g µs after the acknowledgement; groups are disabled 2 µs apart, and
pwr_tier_req then falls. -/
def AlwaysOn.stepGroup (a : AlwaysOn) (p : Params) (i : Nat) : AlwaysOn :=
  let t := a.tier i
  if t.rising && t.ack && t.groups < 4 && t.stamp + usRef p (2 * t.groups) ≤ a.refClk then
    a.onTier i fun t => { t with groups := t.groups + 1 }
  else if t.falling && t.groups > 0 && (t.groups == 4 || t.stamp + usRef p 2 ≤ a.refClk) then
    a.onTier i fun t => { t with groups := t.groups - 1, stamp := a.refClk, req := t.groups != 1 }
  else a

/-- BANK_GROUP_ENABLE. -/
def execBankGroupEnable (tier : BitVec 2) (s : State) : Host.Outcome State Fault Refusal :=
  .next (s.always fun p ao sw => (ao.stepGroup p tier.toNat, sw))

/-- The tier is ready 2 µs after group 3 was enabled, and its fill waits; a set TIER_OFF bit still shows PENDING_OFF (R419, R423). -/
def AlwaysOn.readyTier (a : AlwaysOn) (p : Params) (i : Nat) : AlwaysOn :=
  let t := a.tier i
  if t.rising && t.groups == 4 && t.stamp + usRef p 8 ≤ a.refClk then
    { a.onTier i (fun t => { t with st := if t.st == .poweringUp then .filling else t.st, ready := true }) with moving := none }
  else a

/-- TIER_READY. -/
def execTierReady (tier : BitVec 2) (s : State) : Host.Outcome State Fault Refusal :=
  .next (s.always fun p ao sw => (ao.readyTier p tier.toNat, sw))

/-! ## Zero fills (R386, R389, R397, R419) -/

/-- The tier's fill waits. -/
def Tier.waitsFill (t : Tier) : Bool := t.ready && t.fillAt.isNone

/-- The tier whose fill may start: no other fill runs, the fuse read has finished, the lowest first. -/
def AlwaysOn.nextFill (a : AlwaysOn) (l : Life) : Option Nat :=
  if !l.fuse.done || l.stuck || a.tiers.any (fun t => t.fillAt.isSome) then none
  else firstBelow 4 fun i => (a.tier i).waitsFill

/-- TIER_FILL_START. -/
def execTierFillStart (tier : BitVec 2) (s : State) : Host.Outcome State Fault Refusal :=
  .next (s.runAo fun _ ao sw =>
    (if ao.nextFill sw.life == some tier.toNat then ao.onTier tier.toNat fun t => { t with fillAt := some sw.fr.clk } else ao, sw))

/-- The zero fill of a tier: its lines, tag entries and metadata words are 0, its soft errors gone, its retirements replayed. -/
def Sw.zeroTier (s : Sw) (i : Nat) : Sw :=
  let s := s.onArr fun a => { a with
    data := a.data.filter fun c => tierOf (c.1 / 128) != i
    tags := a.tags.filter fun e => tierOf e.1 != i
    mword := a.mword.filter fun e => tierOf e.1 != i
    errs := a.errs.filter fun e => e.hard || match e.st with
      | .data => tierOf (e.cw / 8) != i
      | .mword => tierOf (2 * e.cw) != i
      | .tag => tierOf (2 * e.cw) != i
      | .dir => true }
  s.replay (s.rep.retired.filter fun p => p.tier == i)

/-- The end of a fill on the switched region (R386, R389). -/
def Sw.filledTier (s : Sw) (i : Nat) : Sw := (s.zeroTier i).onLife fun l => { l with filled := l.filled ||| (1#4 <<< i) }

/-- TIER_FILL_END: 98,304 clk after its start. -/
def execTierFillEnd (tier : BitVec 2) (s : State) : Host.Outcome State Fault Refusal :=
  .next (s.runAo fun _ ao sw =>
    match (ao.tier tier.toNat).fillAt with
    | some c =>
      if c + 98304 ≤ sw.fr.clk then
        (ao.onTier tier.toNat fun t => { t with st := .on, ready := false, fillAt := none }, sw.filledTier tier.toNat)
      else (ao, sw)
    | none => (ao, sw))

/-! ## Logic power-off (R56, R425) -/

/-- PWR_SLEEP_REQ (R56). -/
def execPwrSleepReq (s : State) : Host.Outcome State Fault Refusal :=
  .next (s.always fun _ ao sw => ({ ao with sleepReq := true }, sw))

/-- The state allows logic power-off, and no walk, sweep or tier transition runs (R425). -/
def State.maySleep (s : State) : Bool :=
  s.ao.sleepReq && s.awake && s.ao.moving.isNone && s.sw.walk.isNone && s.sw.life.sweep.isNone
    && match s.sw.life.st with
      | .running => false
      | .quiescing => false
      | _ => true

/-- The event unit goes into retention (R376): the occurrences of the last clk have acted, and every filter output starts at 0 again. -/
def Evt.slept (v : Evt) (clk : Nat) : Evt :=
  { v.endClk.newClk with
    filtTick := false, filtAlert := false, filtBor := false
    filtAt := ([Wire.tickLost, .mpAlert, .bor] : List Wire).foldl (fun m w => sput m (wireEvent w) clk) [] }

/-- What is left of the switched region through logic power-off (R376, R425, R440). -/
def Sw.slept (s : Sw) : Sw :=
  let s := s.quiesceLogic
  { s with
    fr := s.fr.sleep
    evt := s.evt.slept s.fr.clk
    life := { s.life with fuse := { s.life.fuse with rdReq := false } } }

/-- SLEEP_ACK. -/
def execSleepAck (s : State) : Host.Outcome State Fault Refusal :=
  .next (if s.maySleep then { s with ao := { s.ao with asleep := true, sleepAck := true }, sw := s.sw.slept } else s)

/-- The port at wake: the outputs are at their reset values and ky_link_up rises with the next clk; in a fenced slice IO alone is in
service (R21, R36). -/
def Sw.wakePort (s : Sw) : Port :=
  { Port.reset with isolate := if s.life.st == .fenced then .fence else .none }

/-- The switched region has its supply again (R425). -/
def Sw.woken (s : Sw) (fr : Frame) (refClk : Nat) : Sw :=
  { s with port := s.wakePort, fr := fr, life := { s.life with fuse := s.life.fuse.resume refClk } }

/-- After SLICE_START ticks are awaited again from the wake on (R88, R425). -/
def Sw.wakeFrame (s : Sw) : Frame := { s.fr with tickFrom := if s.life.st == .quiesced then some s.fr.clk else none }

/-- WAKE: the supply is back and pwr_sleep_req has fallen. -/
def execWake (s : State) : Host.Outcome State Fault Refusal :=
  .next (if s.ao.asleep then
    { s with
      ao := { s.ao with asleep := false, sleepReq := false, sleepAck := false }
      sw := if s.ao.hold.isNone then s.sw.woken s.sw.wakeFrame s.ao.refClk else s.sw }
  else s)

end Sys2Proof.Machine
end

