-- ==== Sys2Proof/Machine/Readout.lean ====
section
/-! DEFINITION. The readout unit (09, R229, R230, R237 to R241): results, status records and forwards of closed contexts, and
the resending of requests of the slice's own (11, R272; 10, R249). -/
namespace Sys2Proof.Machine

/-! ## Results (R229, R232, R237, R240, R241) -/

/-- Format of OUTFMT 0 to 5. -/
def outFmt (o : BitVec 4) : Fmt :=
  match o.toNat with
  | 1 => Fmt.bf16
  | 2 => Fmt.fp16
  | 3 => Fmt.fp64
  | 5 => Fmt.fp64
  | _ => Fmt.fp32

/-- Bytes of one element of a format. -/
def Fmt.bytes (f : Fmt) : Nat := (1 + f.eb + f.M) / 8

/-- Canonical accumulator `i` counted from line `l0` of a closed context. -/
def RoEnt.value (e : RoEnt) (l0 i : Nat) : Int := accValue (accOf (bytesN (e.lines.getD (l0 + i / 8) 0) (16 * (i % 8)) 16))

/-- First line of the sums of squares. -/
def Template.sqLine (t : Template) : Nat := t.n / 8

/-- Pack values of `n` bytes each into a line. -/
def packLine (n : Nat) (vs : List Nat) : LineBits :=
  (vs.zipIdx).foldl (fun (d : LineBits) x => putBytes d (n * x.2) n x.1) 0

/-- The result lines of a closed context with the bytes of the last one, ROVF and NEGVAR (R237, R240, R241). -/
def RoEnt.result (e : RoEnt) : List LineBits × Nat × Bool × Bool :=
  let t := e.t
  let f := outFmt t.outfmt
  match t.mode.toNat with
  | 0 =>
    if t.outfmt == 4 || t.outfmt == 5 then
      let rs := (List.range t.n).map fun i => meanvar (e.value 0 i) (e.value t.sqLine i) (t.expect + 1) t.anchor t.sqanchor f
      ([packLine f.bytes (rs.map (·.1)), packLine f.bytes (rs.map (·.2.1))], 128, rs.any (·.2.2.1), rs.any (·.2.2.2))
    else
      let rs := (List.range t.n).map fun i => let v := e.value 0 i; roundOnce (v < 0) v.natAbs 1 (t.anchor - 63) f
      ([packLine f.bytes (rs.map (·.1))], 128, rs.any (·.2), false)
  | 1 =>
    let rs := (List.range t.n).map fun k => treeReadout f (tree16 (slots e.lines k))
    ([packLine f.bytes (rs.map (·.1))], t.n * f.bytes, rs.any (·.2), false)
  | _ => ([e.lines.getD 0 0], 128, false, false)

/-- The payload of FX96 part `p` (R229, R230). -/
def RoEnt.part (e : RoEnt) (p : Nat) : LineBits :=
  let t := e.t
  let pp := (t.n + 9) / 10
  let l0 := if p < pp then 0 else t.sqLine
  let first := 10 * (if p < pp then p else p - pp)
  let d := (List.range 10).foldl (fun (d : LineBits) i =>
    if first + i < t.n then putBytes d (12 * i) 12 ((e.value l0 (first + i)) % 2 ^ 96).toNat else d) 0
  let last := p + 1 == t.parts
  let d := putBytes d 120 1 p
  let d := putBytes d 121 1 (last.toNat + e.fl.loss.toNat * 2 + e.fl.ovf.toNat * 4)
  putBytes d 122 2 e.maxexp.toNat

/-- Address of the result of a context (R237). -/
def RoEnt.resultAddr (e : RoEnt) (p : Params) : BitVec 52 :=
  e.t.resultBase + BitVec.ofNat 52 (e.ctx * e.t.resultStride + p.sliceIndex.toNat * e.t.resultSliceStride)

/-- Address of the close-status record (R237). -/
def RoEnt.statusAddr (e : RoEnt) (p : Params) : BitVec 52 :=
  e.t.statusBase + BitVec.ofNat 52 (e.ctx * 16 + p.sliceIndex.toNat * e.t.statusSliceStride)

/-- The close-status record (R239). -/
def RoEnt.record (e : RoEnt) : Nat :=
  e.round.toNat + (e.t.expect + 1) * 2 ^ 16 + e.fl.loss.toNat * 2 ^ 34 + e.fl.ovf.toNat * 2 ^ 35 + e.fl.poison.toNat * 2 ^ 36
    + e.fl.rovf.toNat * 2 ^ 37 + e.fl.negvar.toNat * 2 ^ 38 + e.maxexp.toNat * 2 ^ 48 + e.gtime.toNat * 2 ^ 64

/-- The outputs of an entry, planned from its result (R229, R237, R238). -/
def RoEnt.plan (e : RoEnt) (p : Params) : RoEnt :=
  let a := e.resultAddr p
  let (todo, rovf, neg) : List RoItem × Bool × Bool :=
    if e.t.mode == 0 && e.t.outfmt == 6 then
      ((List.range e.t.parts).map fun k => .fwd (e.part k) e.fl.poison (k + 1 == e.t.parts), false, false)
    else
      let (lines, n, rovf, neg) := e.result
      (if e.t.fwd then [.fwd (lines.getD 0 0) e.fl.poison true]
       else lines.zipIdx.map fun x => .write (a + BitVec.ofNat 52 (128 * x.2)) n
         (if n < 128 then putBytes 0 (a.toNat % 128) n (bytesN x.1 0 n) else x.1) e.fl.poison, rovf, neg)
  { e with planned := true, todo := todo, status := e.t.statusBase != 0, fl := { e.fl with rovf := rovf, negvar := neg } }

/-! ## Issue (R238, R239, R248) -/

/-- A write of an earlier entry to the line has not completed (R239). -/
def Sw.lineWriting (s : Sw) (id : Nat) (addr : BitVec 52) : Bool :=
  s.gth.self.any fun q => match q.owner with
    | .readout i => i != id && laddrOf q.r.addr == laddrOf addr
    | _ => false

/-- The write of a readout entry as a request of the slice's own (R238). -/
def RoEnt.writeReq (e : RoEnt) (p : Params) (id : Nat) (addr : BitVec 52) (bytes : Nat) (data : LineBits) (poison : Bool) : SelfReq :=
  let r := ownReq p (if bytes = 128 then 0x62 else 0x63) id addr (if bytes = 128 then 7 else if bytes = 64 then 6 else 4)
    e.t.resultClass e.owner
  ⟨id, .readout e.id, r, some (ownDat p r data (if poison then 255 else 0)), none, .toSend⟩

/-- The forward of a readout entry as a contribution of the slice's own (R238). -/
def RoEnt.fwdReq (e : RoEnt) (p : Params) (id : Nat) (payload : LineBits) (poison : Bool) : SelfReq :=
  let g : Gth := ⟨0x01, BitVec.ofNat 12 id, p.sliceRid, laddrOf (e.resultAddr p), e.t.fwdCidx, e.t.resultClass, 0, false, 3, e.owner,
    if poison then 255 else 0, payload⟩
  ⟨id, .fwd e.id, ownReq p 0x01 id (e.resultAddr p) 7 e.t.resultClass e.owner, none, some g, .toSend⟩

/-- Issue one request of an entry, if it can leave now. -/
def Sw.issueOne (s : Sw) (p : Params) (e : RoEnt) (q : SelfReq) (f : RoEnt → RoEnt) : Sw :=
  match (s.addSelf q).dispatch p q with
  | none => s
  | some s => s.onRo e.id fun x => f { x with open_ := x.open_ + 1 }

/-- READOUT_WRITE on the switched region: the next output of the oldest entry that has one to issue. -/
def Sw.readoutWrite (s : Sw) (p : Params) : Sw :=
  if s.domainDown then s
  else match s.gth.ro.find? fun e => !e.issuedAll with
  | none => s
  | some e =>
    if s.fr.clk < s.roAt e then s
    else
      let e := if e.planned then e else e.plan p
      let s := s.onRo e.id fun _ => e
      match e.todo with
      | .write a n d pz :: l =>
        if s.lineWriting e.id a then s
        else s.issueOne p e (e.writeReq p s.freeSelf a n d pz) fun x =>
          { x with todo := l, issuedAll := l.isEmpty && !x.status }
      | .fwd d pz last :: l =>
        if last && e.open_ > 0 then s
        else s.issueOne p e (e.fwdReq p s.freeSelf d pz) fun x =>
          { x with todo := l, issuedAll := l.isEmpty && !x.status }
      | [] =>
        if e.open_ > 0 || s.lineWriting e.id (e.statusAddr p) then s
        else
          let a := e.statusAddr p
          s.issueOne p e (e.writeReq p s.freeSelf a 16 (putBytes 0 (a.toNat % 128) 16 e.record) false) fun x =>
            { x with status := false, issuedAll := true }

/-- READOUT_WRITE. -/
def execReadoutWrite (s : State) : Host.Outcome State Fault Refusal := .next (s.run fun p _ sw => sw.readoutWrite p)

/-! ## Resending (R249, R272) -/

/-- It is an image access of a walk (R258). -/
def SelfReq.isImage (q : SelfReq) : Bool := match q.owner with
  | .image _ _ => true
  | _ => false

/-- RETRY_RESEND on the switched region: the oldest request of the slice's own whose 32 clk have passed is sent again; image accesses
of a walk that stands still wait (R412). -/
def Sw.resend (s : Sw) (p : Params) : Sw :=
  if s.domainDown then s
  else match s.gth.self.find? fun q => match q.st with
      | .resendAt c => c ≤ s.fr.clk && !(q.isImage && s.walk.any s.walkStopped)
      | _ => false with
  | none => s
  | some q => (s.dispatch p q).getD s

/-- RETRY_RESEND. -/
def execRetryResend (s : State) : Host.Outcome State Fault Refusal := .next (s.run fun p _ sw => sw.resend p)

end Sys2Proof.Machine
end

