-- ==== Sys2Proof/Machine/Dispatch.lean ====
section
/-! DEFINITION. One arm for each command of Syntax: the meaning it is given. -/
namespace Sys2Proof.Machine

/-- The effect of a command on everything but the queue of waiting commands. -/
def exec (i : Instr) (s : State) : Host.Outcome State Fault Refusal :=
  match i with
  | .reqFlitArrival flit => Sys2Proof.Machine.execReqFlitArrival flit s
  | .datFlitArrival flit => Sys2Proof.Machine.execDatFlitArrival flit s
  | .rspFlitArrival flit => Sys2Proof.Machine.execRspFlitArrival flit s
  | .gthFlitArrival flit => Sys2Proof.Machine.execGthFlitArrival flit s
  | .ioFlitArrival flit => Sys2Proof.Machine.execIoFlitArrival flit s
  | .creditReturn ch => Sys2Proof.Machine.execCreditReturn ch s
  | .slotDecide => Sys2Proof.Machine.execSlotDecide s
  | .arrayAccessStart pair => Sys2Proof.Machine.execArrayAccessStart pair s
  | .responseSend ch => Sys2Proof.Machine.execResponseSend ch s
  | .snoopSend => Sys2Proof.Machine.execSnoopSend s
  | .evictionBufferEntry => Sys2Proof.Machine.execEvictionBufferEntry s
  | .retryTrackerExpiry entry => Sys2Proof.Machine.execRetryTrackerExpiry entry s
  | .cohTicketLapse => Sys2Proof.Machine.execCohTicketLapse s
  | .snoopTimeout txn => Sys2Proof.Machine.execSnoopTimeout txn s
  | .compAckTimeout txn => Sys2Proof.Machine.execCompAckTimeout txn s
  | .domainDrainEnd => Sys2Proof.Machine.execDomainDrainEnd s
  | .readoutWrite => Sys2Proof.Machine.execReadoutWrite s
  | .internalSignal => Sys2Proof.Machine.execInternalSignal s
  | .retryResend => Sys2Proof.Machine.execRetryResend s
  | .syncSignal => Sys2Proof.Machine.execSyncSignal s
  | .syncReset => Sys2Proof.Machine.execSyncReset s
  | .syncArm => Sys2Proof.Machine.execSyncArm s
  | .notifyEnqueue => Sys2Proof.Machine.execNotifyEnqueue s
  | .notifySend => Sys2Proof.Machine.execNotifySend s
  | .mpReadIssue ready => Sys2Proof.Machine.execMpReadIssue ready s
  | .mpReadBeat tag beat data par poison err => Sys2Proof.Machine.execMpReadBeat tag beat data par poison err s
  | .mpWriteIssue ready0 ready1 => Sys2Proof.Machine.execMpWriteIssue ready0 ready1 s
  | .mpWriteComplete tag => Sys2Proof.Machine.execMpWriteComplete tag s
  | .mpThrottleFilter level => Sys2Proof.Machine.execMpThrottleFilter level s
  | .wireEventFilter wire level => Sys2Proof.Machine.execWireEventFilter wire level s
  | .tickTaken => Sys2Proof.Machine.execTickTaken s
  | .tickLost => Sys2Proof.Machine.execTickLost s
  | .frameBoundary => Sys2Proof.Machine.execFrameBoundary s
  | .pmcSlotReport => Sys2Proof.Machine.execPmcSlotReport s
  | .verifyRead => Sys2Proof.Machine.execVerifyRead s
  | .traceTransfer ready => Sys2Proof.Machine.execTraceTransfer ready s
  | .evtDelivery bank => Sys2Proof.Machine.execEvtDelivery bank s
  | .evtClaim => Sys2Proof.Machine.execEvtClaim s
  | .evtComplete => Sys2Proof.Machine.execEvtComplete s
  | .evtPendSet => Sys2Proof.Machine.execEvtPendSet s
  | .evtPendClr => Sys2Proof.Machine.execEvtPendClr s
  | .evtMaskSet => Sys2Proof.Machine.execEvtMaskSet s
  | .evtMaskClr => Sys2Proof.Machine.execEvtMaskClr s
  | .mbxCmdWrite => Sys2Proof.Machine.execMbxCmdWrite s
  | .mbxDoorbell => Sys2Proof.Machine.execMbxDoorbell s
  | .mbxEpochWrite => Sys2Proof.Machine.execMbxEpochWrite s
  | .commandTake => Sys2Proof.Machine.execCommandTake s
  | .crcReread ch => Sys2Proof.Machine.execCrcReread ch s
  | .sliceInfo ch => Sys2Proof.Machine.execSliceInfo ch s
  | .sliceStart ch => Sys2Proof.Machine.execSliceStart ch s
  | .sliceQuiesce ch => Sys2Proof.Machine.execSliceQuiesce ch s
  | .quiesceDone => Sys2Proof.Machine.execQuiesceDone s
  | .sliceFence ch => Sys2Proof.Machine.execSliceFence ch s
  | .sliceReset ch => Sys2Proof.Machine.execSliceReset ch s
  | .interleaveSet ch => Sys2Proof.Machine.execInterleaveSet ch s
  | .partSet ch => Sys2Proof.Machine.execPartSet ch s
  | .pinBind ch => Sys2Proof.Machine.execPinBind ch s
  | .pinUnbind ch => Sys2Proof.Machine.execPinUnbind ch s
  | .apertureSet ch => Sys2Proof.Machine.execApertureSet ch s
  | .apertureApply => Sys2Proof.Machine.execApertureApply s
  | .stakeLoad ch => Sys2Proof.Machine.execStakeLoad ch s
  | .stakeSwitch ch => Sys2Proof.Machine.execStakeSwitch ch s
  | .frameSet ch => Sys2Proof.Machine.execFrameSet ch s
  | .qosAdmit ch => Sys2Proof.Machine.execQosAdmit ch s
  | .qosRelease ch => Sys2Proof.Machine.execQosRelease ch s
  | .gatherRegion ch => Sys2Proof.Machine.execGatherRegion ch s
  | .templateApply => Sys2Proof.Machine.execTemplateApply s
  | .gatherSave ch => Sys2Proof.Machine.execGatherSave ch s
  | .gatherRestore ch => Sys2Proof.Machine.execGatherRestore ch s
  | .gatherDrain ch => Sys2Proof.Machine.execGatherDrain ch s
  | .syncConfig ch => Sys2Proof.Machine.execSyncConfig ch s
  | .flush ch => Sys2Proof.Machine.execFlush ch s
  | .scrubCfg ch => Sys2Proof.Machine.execScrubCfg ch s
  | .repairStatus ch => Sys2Proof.Machine.execRepairStatus ch s
  | .repairApply ch => Sys2Proof.Machine.execRepairApply ch s
  | .telemRead ch => Sys2Proof.Machine.execTelemRead ch s
  | .fwVersion ch => Sys2Proof.Machine.execFwVersion ch s
  | .fwLoadBegin ch => Sys2Proof.Machine.execFwLoadBegin ch s
  | .fwLoadData ch => Sys2Proof.Machine.execFwLoadData ch s
  | .fwLoadEnd ch => Sys2Proof.Machine.execFwLoadEnd ch s
  | .walkDone => Sys2Proof.Machine.execWalkDone s
  | .hstDomainClear => Sys2Proof.Machine.execHstDomainClear s
  | .hstAptSyncRead => Sys2Proof.Machine.execHstAptSyncRead s
  | .rstSwreqCold => Sys2Proof.Machine.execRstSwreqCold s
  | .rstSwreqWarm => Sys2Proof.Machine.execRstSwreqWarm s
  | .rstSwreqBlock => Sys2Proof.Machine.execRstSwreqBlock s
  | .rstCntClr => Sys2Proof.Machine.execRstCntClr s
  | .rstPwrCtrlWrite => Sys2Proof.Machine.execRstPwrCtrlWrite s
  | .pmcCntClr => Sys2Proof.Machine.execPmcCntClr s
  | .registerWrite => Sys2Proof.Machine.execRegisterWrite s
  | .softwareResetRaise => Sys2Proof.Machine.execSoftwareResetRaise s
  | .powerOn vbakLost => Sys2Proof.Machine.execPowerOn vbakLost s
  | .brownOut => Sys2Proof.Machine.execBrownOut s
  | .pinReset => Sys2Proof.Machine.execPinReset s
  | .clockFail => Sys2Proof.Machine.execClockFail s
  | .watchdog => Sys2Proof.Machine.execWatchdog s
  | .wdogWarn => Sys2Proof.Machine.execWdogWarn s
  | .lehrTimer => Sys2Proof.Machine.execLehrTimer s
  | .lockup => Sys2Proof.Machine.execLockup s
  | .resetRelease => Sys2Proof.Machine.execResetRelease s
  | .blockResetRelease unit => Sys2Proof.Machine.execBlockResetRelease unit s
  | .warmSweepEnd => Sys2Proof.Machine.execWarmSweepEnd s
  | .fuseWord data => Sys2Proof.Machine.execFuseWord data s
  | .fuseTimeout => Sys2Proof.Machine.execFuseTimeout s
  | .lehrRelease => Sys2Proof.Machine.execLehrRelease s
  | .pwrTierAck tier level => Sys2Proof.Machine.execPwrTierAck tier level s
  | .tierTransitionStart tier => Sys2Proof.Machine.execTierTransitionStart tier s
  | .bankGroupEnable tier => Sys2Proof.Machine.execBankGroupEnable tier s
  | .tierReady tier => Sys2Proof.Machine.execTierReady tier s
  | .tierFillStart tier => Sys2Proof.Machine.execTierFillStart tier s
  | .tierFillEnd tier => Sys2Proof.Machine.execTierFillEnd tier s
  | .pwrSleepReq => Sys2Proof.Machine.execPwrSleepReq s
  | .sleepAck => Sys2Proof.Machine.execSleepAck s
  | .wake => Sys2Proof.Machine.execWake s
  | .gtimeCapture gtime => Sys2Proof.Machine.execGtimeCapture gtime s
  | .droopExcursion site => Sys2Proof.Machine.execDroopExcursion site s
  | .firmwareStart => Sys2Proof.Machine.execFirmwareStart s

end Sys2Proof.Machine
end

