-- ==== Sys2Proof/Machine/Outputs.lean ====
section
/-! DEFINITION. The signals that the slice drives, as its state gives them, and what a receiver sees of them through the isolation
cells (02, R31, R32, R47, R49, R54, R58 to R64; 18, R417). Nothing here changes the state. -/
namespace Sys2Proof.Machine

/-- The outputs of the always-on region, through hold-type cells: no isolation changes them (R31). -/
structure HeldOutputs where
  /-- pwr_tier_req[0] to [3]. -/
  tierReq : List Bool
  sleepAck : Bool
  domFatalOut : Bool
  rstReqOut : Bool
  deriving DecidableEq, Repr

/-- The outputs of the always-on region. -/
def State.heldOutputs (s : State) : HeldOutputs :=
  ⟨s.ao.tiers.map (·.req), s.ao.sleepAck, s.ao.domFatalOut, s.ao.rstReqOut⟩

/-- The valid outputs, in the order of the clamp parameter: IO, RSP, DAT, SNP, GTH, REQ. -/
def Port.valids (p : Port) : BitVec 6 :=
  BitVec.ofNat 6 (p.ioOut.isSome.toNat + p.rspOut.isSome.toNat * 2 + p.datOut.isSome.toNat * 4 + p.snpOut.isSome.toNat * 8
    + p.gthOut.isSome.toNat * 16 + p.reqOut.isSome.toNat * 32)

/-- The credit outputs, in the order of the clamp parameter: IO, RSP, DAT, GTH, REQ. -/
def Port.credits (p : Port) : BitVec 5 :=
  let c (l : Lane) : Nat := (p.crdPin.contains l).toNat
  BitVec.ofNat 5 (c .io + c .rsp * 2 + c .dat * 4 + c .gth * 8 + c .req * 16)

/-- The read on the memory port: the one that transfers in this clk, or the one presented (R47, R48). -/
def Sw.readPin (s : Sw) : Option (Nat × BitVec 45) :=
  match s.mp.rdPin with
  | some r => some r
  | none => s.mp.presented.map fun r => (r.1, s.map.addr r.2.line)

/-- What the switched region drives before the isolation cells. A row of the memory port's writes covers two beats: `k` says which of
the beats of this clk is meant. An output without a valid beside it reads 0 (log 105). -/
def Sw.driven (s : Sw) (ao : AlwaysOn) (k : Nat) : Clamps :=
  let p := s.port
  let rd := s.readPin
  let w := s.mp.wrPin[k]?
  let rec_ := if ao.held 4 then none else s.trc.buf.head?
  { ioOutFlit := p.ioOut.getD 0, rspOutFlit := p.rspOut.getD 0, datOutFlit := p.datOut.getD 0, snpOutFlit := p.snpOut.getD 0
    gthOutFlit := p.gthOut.getD 0, reqOutFlit := p.reqOut.getD 0
    outValid := p.valids, inCrd := p.credits, linkUp := p.linkUp
    mpRdReqValid := rd.isSome
    mpRdReqAddr := (rd.map (·.2)).getD 0
    mpRdReqTag := BitVec.ofNat 9 ((rd.map (·.1)).getD 0)
    mpWrValid := w.isSome
    mpWrAddr := (w.map (·.addr)).getD 0
    mpWrTag := (w.map (·.tag)).getD 0
    mpWrBeat := (w.map (·.beat)).getD false
    mpWrData := (w.map (·.data)).getD 0
    mpWrPar := (w.map (·.par)).getD 0
    mpWrPoison := (w.map (·.poison)).getD 0
    fuseRdReq := s.life.fuse.rdReq, fuseAddr := s.life.fuse.addr
    trcValid := rec_.isSome, trcData := rec_.getD 0
    tstWso := Config.tstWso s.fr.clk }

/-- Isolation of the outputs (R62, R64): full isolation shows every clamp parameter; a fence leaves ky_link_up, ky_io_in_crd,
ky_io_out_valid and ky_io_out_flit in service. -/
def Isolation.cells (i : Isolation) (c d : Clamps) : Clamps :=
  match i with
  | .none => d
  | .full => c
  | .fence => { c with
      ioOutFlit := d.ioOutFlit, linkUp := d.linkUp
      outValid := (c.outValid &&& 62#6) ||| (d.outValid &&& 1#6)
      inCrd := (c.inCrd &&& 30#5) ||| (d.inCrd &&& 1#5) }

/-- What the receivers of the switched region's outputs see in this clk. -/
def State.outputs (s : State) (k : Nat) : Clamps := s.sw.port.isolate.cells s.params.clamp (s.sw.driven s.ao k)

end Sys2Proof.Machine
end

