-- ==== Sys2Proof/Safety.lean ====
section
/-! DEFINITION. What counts as a run that went well: the commands waiting were all performed, without a fault or a refusal. -/
namespace Sys2Proof

/-- `n` steps from a state end in a next state that satisfies `good`. -/
def RunsTo (n : Nat) (s : Machine.State) (good : Machine.State → Prop) : Prop :=
  ∃ t, Host.Core.run core n s = .next t ∧ good t

/-- A step stops the machine. -/
def Stops (s : Machine.State) : Prop := ∀ t, Machine.step s ≠ .next t

/-! ## Words of the statements -/
open Machine

/-- The commands that act while a reset holds the switched region or it is in logic power-off: resets, the causes that join one,
their release, the passing of a clk, tier power, sleep and wake, the gtime edge, and answers of the memory controller (R360, R403,
R405, R411, R419, R425). -/
def actsWhileHeld : Instr → Bool
  | .powerOn _ => true
  | .brownOut => true
  | .pinReset => true
  | .clockFail => true
  | .watchdog => true
  | .lockup => true
  | .softwareResetRaise => true
  | .resetRelease => true
  | .slotDecide => true
  | .pwrTierAck _ _ => true
  | .tierTransitionStart _ => true
  | .bankGroupEnable _ => true
  | .tierReady _ => true
  | .pwrSleepReq => true
  | .wake => true
  | .gtimeCapture _ => true
  | .mpReadBeat _ _ _ _ _ _ => true
  | .mpWriteComplete _ => true
  | _ => false

/-- An entry that entered in frame `born` has stayed across 64 frame boundaries while it was watched (R408). -/
def Stuck (s : State) (born : Nat) : Prop := born + 64 ≤ s.sw.fr.frameNo ∧ s.sw.life.watch + 64 ≤ s.sw.fr.frameNo

/-- What starts a warm reset: the package pin; the sclk monitor; the watchdog armed 50 ms ago; an entry of a watched
structure that has stayed across 64 frame boundaries (R403, R406 to R408). -/
def WarmCause (s : State) (c : Instr) (cause : BitVec 4) : Prop :=
  (c = .pinReset ∧ cause = 3 ∧ s.ao.hold = none) ∨
  (c = .clockFail ∧ cause = 7 ∧ s.awake = true ∧ 4 ≤ s.ao.sclk.slow) ∨
  (c = .watchdog ∧ cause = 4 ∧ s.awake = true ∧ ∃ r, s.sw.life.wdog = some r ∧ r + 50000 * s.params.refMHz ≤ s.ao.refClk) ∨
  (c = .lockup ∧ cause = 8 ∧ s.awake = true
    ∧ (s.sw.life.st = .running ∨ s.sw.life.st = .quiescing ∨ s.sw.life.st = .quiesced)
    ∧ ((∃ e ∈ s.sw.q.req, Stuck s e.born) ∨ (∃ e ∈ s.sw.q.io, Stuck s e.born) ∨ (∃ e ∈ s.sw.q.gth, Stuck s e.born)
      ∨ (∃ e ∈ s.sw.gth.ro, Stuck s e.born) ∨ (∃ e ∈ s.sw.syn.nq, Stuck s e.born) ∨ (∃ e ∈ s.sw.cache.ev, Stuck s e.born)
      ∨ ∃ x ∈ s.sw.home.txns, Stuck s x.born ∧ x.await = [] ∧ x.ph ≠ .ack))

/-- The counters after a release: in SERVICE each cause raised adds 1 up to 255, in BENCH nothing counts (R361). -/
def CountsAfter (mode : BitVec 2) (raised : List (BitVec 4)) (old new : List (BitVec 8)) : Prop :=
  new.length = old.length ∧ ∀ i < old.length, new.getD i 0 =
    if mode = 0 ∧ (∃ c ∈ raised, c.toNat = i + 1) then (if old.getD i 0 = 255 then 255 else old.getD i 0 + 1)
    else old.getD i 0

/-- Tier `i` of the always-on region becomes `x`, and nothing else of the state changes but `moving` and `lastTransition`. -/
def TierBecomes (s t : State) (i : Nat) (x : Tier) (moving lastT : Option Nat) : Prop :=
  t = { s with ao := { s.ao with tiers := s.ao.tiers.set i x, moving := moving, lastTransition := lastT } }

/-- One occurrence of event source `id` with INFO `info`, noted in its clk with the INFO of the first of that clk; it acts at the
clk's end (R9, R367, R375). Every other source and every bank is as it was. -/
def Raised (s t : Sw) (id : Nat) (info : BitVec 64) : Prop :=
  t.src id = { s.src id with
      fresh := (s.src id).fresh + 1, freshInfo := if (s.src id).fresh = 0 then info else (s.src id).freshInfo }
    ∧ (Sparse.wf EvtSrc.reset s.evt.src → ∀ k, k ≠ id → t.src k = s.src k)
    ∧ { t.evt with src := s.evt.src } = s.evt

/-- The half at the front of the window accesses: a write of `v` at offset `off`, or a read there, of access `a`. -/
def AtFront (s : State) (write : Bool) (a : WinAcc) (off : Nat) (v : BitVec 32) : Prop :=
  s.awake = true ∧ s.sw.front = some (a, off, v) ∧ a.write = write

/-- The flit that arrived on lane `l` is refused: its answer leaves exactly 10 clk later, with its credit (R84, R95, R206,
R306). -/
def TurnedAway (s t : State) (l : Lane) (txn src : BitVec 12) (op status : BitVec 8) : Prop :=
  ∃ x, t.sw.pipe.rsp = s.sw.pipe.rsp ++ [x] ∧ x.due = s.sw.fr.clk + 10 ∧ x.exact = true ∧ x.crd = some l
    ∧ x.body = .rsp ⟨op, txn, src, s.params.sliceRid, status, 0⟩ ∧ t.sw.port.crdDue = s.sw.port.crdDue

/-- With its last half a window access is answered: OK, with what it read, no earlier than 14 clk after its acceptance (R84). -/
def Answered (s t : State) (a : WinAcc) (off v : Nat) : Prop :=
  a.halves.length = 1 → ∃ r ∈ t.sw.pipe.rsp, r.due = max (a.acc + 14) s.sw.fr.clk
    ∧ r.body = .io (ioAnswer s.params a.f ioOK (if a.write then 0 else putBytes a.rdata (off - a.off) 4 v))

/-- A mailbox command of opcode `op` with payload `d` has passed checks 1 to 5 and waits in channel `n` for its row, which
accepts it in the state and with the fields that it finds (checks 6 and 7 of R329). -/
def CommandReady (s : State) (n : BitVec 2) (op : Nat) (c : RunCmd) : Prop :=
  s.awake = true ∧ s.sw.life.lehrUp = true ∧ (s.sw.mbx.ch n).run = some c ∧ c.op.toNat = op ∧ c.started = false
    ∧ ∃ r, cmdRow op = some r ∧ s.sw.checkState r c.pay = none

/-- The command of channel `n` has completed with reply `r`: DONE, CODE, the response buffer with OPCODE, TAG and SEQ, and
MBX_DONE. Beside the channel, the event unit, the counters and the trace unit, the switched region is `sw`, and the
always-on region is as it was. -/
def Completed (s t : State) (n : BitVec 2) (c : RunCmd) (r : Reply) (sw : Sw) : Prop :=
  t.ao = s.ao ∧ t.sw.mbx.ch n = { s.sw.mbx.ch n with
      rsp := responseBuf c.op c.tag (s.sw.mbx.ch n).seq r, st := .done, code := r.status, run := none
      rereads := 0, rereadAt := none }
    ∧ (∀ m, m ≠ n → t.sw.mbx.ch m = s.sw.mbx.ch m) ∧ t.sw.mbx.last = s.sw.mbx.last
    ∧ (t.sw.src (25 + n.toNat)).fresh ≠ 0
    ∧ { t.sw with mbx := sw.mbx, evt := sw.evt, pmc := sw.pmc, trc := sw.trc } = sw

/-- The command of channel `n` has started and runs on; beside that the switched region is `sw` and the always-on region as
it was. -/
def RunsOn (s t : State) (n : BitVec 2) (c : RunCmd) (sw : Sw) : Prop :=
  t.ao = s.ao ∧ t.sw.mbx.ch n = { s.sw.mbx.ch n with run := some { c with started := true } }
    ∧ (∀ m, m ≠ n → t.sw.mbx.ch m = s.sw.mbx.ch m) ∧ t.sw.mbx.last = s.sw.mbx.last ∧ { t.sw with mbx := sw.mbx } = sw

/-- A walk of kind `k` that begins for channel `n` with `total` units of fixed work: at its first unit, and held when it was
accepted in QUIESCING (R100, R338, R340). -/
def WalkBegins (s : Sw) (w : Walk) (n : BitVec 2) (k : WalkKind) (total : Nat) : Prop :=
  w.kind = k ∧ w.ch = some n ∧ w.held = (s.life.st == .quiescing) ∧ w.started = false ∧ w.cur = 0 ∧ w.pass = 0 ∧ w.units = 0
    ∧ w.total = total ∧ w.count = 0 ∧ w.img = [] ∧ w.failed = false ∧ w.todo = [] ∧ w.again = false ∧ w.extra = 0

/-- The running walk does nothing between its units: it is no gather save or restore, and no retirement with lines on their way to
memory. -/
def walkRests (w : Walk) : Bool := match w.kind with
  | .save _ _ _ _ _ _ => false
  | .restore _ _ _ _ => false
  | .retire _ => w.todo.isEmpty
  | _ => true

/-- Nothing of an earlier clk is under way but the requests `staged` between their acceptance and RES, transactions that await
COMP_ACK, and a walk between its units: no frame boundary is due, and no other request, access, write, response, transaction or
output of the slice's own is unfinished. -/
def QuietBut (s : Sw) (staged : List Staged) : Prop :=
  s.fr.due = false ∧ s.fr.pos + 1 < s.fr.len ∧ s.life.drain = none ∧ s.life.st ≠ .fenced
    ∧ s.q.reqReg = [] ∧ s.q.direct = none ∧ s.pipe.staged = staged ∧ s.pipe.uses = []
    ∧ (∀ f ∈ s.pipe.flights, s.fr.clk < f.acc + f.delay + 44 ∨ ∃ x ∈ s.home.txns, x.seq = f.id)
    ∧ s.pipe.acc = [] ∧ s.pipe.wr = [] ∧ s.pipe.rsp = [] ∧ s.pipe.win = []
    ∧ s.pipe.syn = [] ∧ s.pipe.cleans = [] ∧ (∀ x ∈ s.home.txns, x.ph = .ack ∧ x.answers = [])
    ∧ s.gth.self = [] ∧ s.gth.ro = [] ∧ s.walk.all walkRests = true
    ∧ s.trc.fresh = [] ∧ s.arr.found = [] ∧ s.life.domClr = none

/-- Nothing of an earlier clk is under way. -/
def Quiet (s : Sw) : Prop := QuietBut s [] ∧ s.life.fatal = none

/-- The clk has ended with the switched region `sw`, but for the frame unit, the port, the pipeline, the memory port, the event
unit, the counters and the trace unit; no memory read was decided but those of `sw`. -/
def ClkEnds (s t : State) (sw : Sw) : Prop :=
  t.ao = { s.ao with counted := [], sclk := s.ao.sclk.edge } ∧ t.sw.fr.clk = s.sw.fr.clk + 1 ∧ t.sw.fr.pos = s.sw.fr.pos + 1 ∧ t.sw.mp.wait = sw.mp.wait
    ∧ { t.sw with fr := sw.fr, port := sw.port, pipe := sw.pipe, mp := sw.mp, evt := sw.evt, pmc := sw.pmc, trc := sw.trc } = sw

/-- A REQ request comes through RES as SLOT_DECIDE ends the present clk, whose slot admits nothing (R74): nothing else is under way, no
ticket or tracker entry stands, the store is free of errors, and its line, of local index `l`, lies in no region. -/
def AtRes (s : State) (x : Staged) (e : ReqEnt) (l : Nat) : Prop :=
  s.awake = true ∧ QuietBut s.sw [x] ∧ s.sw.life.fatal = none ∧ s.sw.home.txns = [] ∧ s.sw.choose s.params s.ao = .empty
    ∧ x.cand = .req e ∧ x.out = none ∧ e.self = none ∧ x.acc + 7 = s.sw.fr.clk + 1 ∧ l = s.sw.map.index (laddrOf e.r.addr)
    ∧ s.sw.regionOf l = none ∧ s.ao.blockHolds = [] ∧ s.sw.home.tickets = [] ∧ s.sw.home.tracker = []
    ∧ s.sw.arr.errs = [] ∧ s.sw.arr.lost = [] ∧ s.sw.pipe.parity = [] ∧ s.sw.pipe.undo = []
    ∧ s.sw.cache.ev = [] ∧ s.sw.cache.evWait = [] ∧ s.sw.cache.side = [] ∧ ∀ k, dValid (s.sw.dirAt k) = true

/-- It hits the KIND 0 line at `loc`, for which the directory records no holder (R111, R171). -/
def HitsAt (s : State) (l loc : Nat) : Prop :=
  s.sw.findDir l = none ∧ s.sw.findCached l = some loc ∧ tRetired (s.sw.tag loc) = false

/-- It misses, and `loc` is the first empty way that it may take (R111, R118). -/
def MissesInto (s : State) (x : Staged) (l loc : Nat) : Prop :=
  s.sw.findLine l = none ∧ x.alloc.mode = 0 ∧ (s.sw.allowed x.alloc (setOf l)).find? (fun a => !tValid (s.sw.tag a)) = some loc

/-- The one response that waits to leave. -/
def AnswersWith (t : State) (due : Nat) (body : Body) : Prop := ∃ r, t.sw.pipe.rsp = [r] ∧ r.due = due ∧ r.body = body

/-- The one home transaction is that of the request; `key` is its directory entry (R170, R171). -/
def OpensTxn (t : State) (y : Txn) (e : ReqEnt) (l : Nat) (key : Option Nat) : Prop :=
  y.idx < 256 ∧ y.kind = .req ∧ y.r = e.r ∧ y.line = l ∧ y.dirKey = key ∧ y.await = [] ∧ t.sw.home.txns = [y]

/-- A request that free-slot arbitration can take: the oldest of its class among the admitted ones that are not locked-only, no
other of the class being as old (R94, R96, R97). -/
def Contends (s : Sw) (p : Params) (c : Cand) : Prop :=
  c ∈ s.eligible p ∧ s.admits c = true ∧ s.lockedCand c = false
    ∧ ∀ y ∈ s.eligible p, s.admits y = true → s.lockedCand y = false → y.cls = c.cls → y ≠ c → c.age < y.age

/-- How far class `c` lies beyond class `start` in cyclic order (R97). -/
def cyclic (start c : Nat) : Nat := (c + 64 - start % 64) % 64

/-- The guaranteed minimum of the class is not yet met in this frame (R97). -/
def belowMinimum (s : Sw) (c : Nat) : Bool := sget 0 s.fr.granted c < (s.cls c).minSlots

/-- The slot of the present clk runs a background unit, and nothing else is under way (R97, R100). -/
def BackgroundSlot (s : State) : Prop :=
  s.awake = true ∧ Quiet s.sw ∧ s.sw.choose s.params s.ao = .background

/-- It runs a unit of the walk `w`, and the store is free of errors (R100). -/
def WalkSlot (s : State) (w : Walk) : Prop :=
  BackgroundSlot s ∧ s.sw.pmc.units = 12 ∧ s.sw.tel.units = 4 ∧ s.sw.walk = some w ∧ s.sw.walkPending = true
    ∧ s.sw.home.txns = [] ∧ s.sw.arr.errs = [] ∧ s.sw.arr.lost = [] ∧ s.sw.pipe.undo = []
    ∧ s.sw.cache.ev = [] ∧ s.sw.cache.evWait = [] ∧ s.sw.cache.side = []

/-- The unit leaves the walk as `w'`, counted. -/
def WalkStands (s t : State) (w w' : Walk) : Prop :=
  t.sw.walk = some { w' with
    units := w.units + 1, started := true, startGtime := if w.started = true then w.startGtime else s.sw.fr.bGtime }

/-- A contribution to context `x` comes through RES as SLOT_DECIDE ends the present clk, whose slot admits nothing: nothing else is
under way, and the store is free of errors (R74, R215). -/
def GthAtRes (s : State) (c : Staged) (e : GthEnt) (x : GthTarget) : Prop :=
  s.awake = true ∧ QuietBut s.sw [c] ∧ s.sw.life.fatal = none ∧ s.sw.choose s.params s.ao = .empty ∧ s.sw.walk = none
    ∧ c.cand = .gth e ∧ c.out = none ∧ e.fwd = none ∧ c.acc + 7 = s.sw.fr.clk + 1 ∧ s.ao.blockHolds = []
    ∧ s.sw.target (s.sw.map.index e.g.laddr) = some x ∧ x.reg.ph = .bound ∧ x.locs.Nodup
    ∧ (∀ a ∈ x.locs, tRetired (s.sw.tag a) = false) ∧ s.sw.arr.errs = [] ∧ s.sw.arr.lost = [] ∧ s.sw.pipe.parity = []

/-- The header that the context's head line stores (R219). -/
def headerAt (s : State) (x : GthTarget) : BitVec 56 := (s.sw.arr.stored (x.locs.headD 0)).hdr

/-- A tier's power state is one that the sequence of R419 and R423 can show: a bank group is on only while pwr_tier_req is, an
OFF tier has neither, an ON tier has all four groups, and a fill waits or runs only with all four on. -/
def TierLegal (x : Tier) : Prop :=
  x.groups ≤ 4 ∧ (x.groups ≠ 0 → x.req = true) ∧ (x.st = .off → x.req = false)
    ∧ (x.st = .poweringUp ∨ x.st = .pendingOff → x.req = true) ∧ (x.st = .on → x.groups = 4)
    ∧ (x.ready = true → x.groups = 4 ∧ (x.st = .filling ∨ x.st = .pendingOff)) ∧ (x.st = .filling → x.ready = true)
    ∧ (x.fillAt ≠ none → x.ready = true)

/-- The invariant of the always-on region: eight reset counters, four HOST_EPOCH values and four tiers in legal power states, one
transition and one fill at a time (R361, R419); HST_DOMAIN shows AGAIN only with DEAD (R357); a reset in progress is cold or
warm, has a cause to count, and ends every block reset (R360); a unit has one block reset (R414); the slice sleeps only with
pwr_sleep_ack high (R425); a reset pin that is low holds a reset (R406). -/
def AlwaysOnLegal (a : AlwaysOn) : Prop :=
  a.counts.length = 8 ∧ a.hostEpoch.length = 4 ∧ a.tiers.length = 4
    ∧ (∀ x ∈ a.tiers, TierLegal x)
    ∧ (∀ i < 4, (a.tier i).rising = true ∨ (a.tier i).falling = true → a.moving = some i)
    ∧ (∀ i < 4, ∀ j < 4, (a.tier i).fillAt ≠ none → (a.tier j).fillAt ≠ none → i = j)
    ∧ (a.dom.again = true → a.dom.dead = true)
    ∧ (∀ h, a.hold = some h → h.reach.toNat ≤ 1 ∧ h.raised ≠ [] ∧ a.blockHolds = [] ∧ (h.powerOn = true → h.reach = 0))
    ∧ (a.blockHolds.map fun b => b.unit).Nodup
    ∧ (a.asleep = true → a.sleepAck = true)
    ∧ (a.pinLow = true → ∃ h, a.hold = some h ∧ h.refOut = none) ∧ a.sclk.good ≤ 64 ∧ a.sclk.slow ≤ 4

/-- The firing check that follows every operation on a sync object (R277): an armed object whose COUNTER has reached THR, in
modulo-2^64 order, fires once. -/
def fired (o : SyncObj) : SyncObj :=
  if o.armed && (o.counter - o.thr).toNat < 2 ^ 63 then { o with armed := false, pend := o.pend || o.nkind != 0 } else o

/-- Object `m` becomes `o`, and nothing else of the sync unit changes. -/
def ObjectBecomes (s t : Sw) (m : Nat) (o : SyncObj) : Prop :=
  t.syncObj m = o ∧ (Sparse.wf SyncObj.zero s.syn.obj → ∀ k, k ≠ m → t.syncObj k = s.syncObj k)
    ∧ { t.syn with obj := s.syn.obj } = s.syn

/-- The sources that the 1s of a bitmap write name: bit `i` of register `n` stands for ID 32n + i, IDs 1 to 28 exist (R367,
R374). -/
def Named (n : Nat) (v : BitVec 32) (id : Nat) : Prop :=
  1 ≤ id ∧ id ≤ 28 ∧ id / 32 = n ∧ v.getLsbD (id % 32) = true

end Sys2Proof
end

