-- ==== Sys2Proof/Certificates/Slice0/Obligations.lean ====
section
/-! DEFINITION. The statements for the provers: what each command does, what no command does, and the invariants of the slice. -/
open Sys2Proof Sys2Proof.Machine

/-! ## The queue, the outcomes, and a region that is held -/

/-- A step takes the command at the front of the queue and runs it with the queue's rest. -/
def Obligations.StepRunsFrontCommand : Prop :=
  ∀ (s : State) (c : Instr) (rest : List Instr), s.pending = c :: rest → step s = exec c { s with pending := rest }

/-- No command is refused, and the one fault is that of a read-data beat that breaks R48 (R5). -/
def Obligations.EveryCommandIsModelled : Prop :=
  (∀ (c : Instr) (s : State) (r : Refusal), exec c s ≠ .refused r) ∧
  ∀ (c : Instr) (s : State) (r : Fault), exec c s = .fault r →
    ∃ tag beat data par poison err, c = .mpReadBeat tag beat data par poison err

/-- A command changes neither the queue of waiting commands nor an instantiation parameter (R62, R350, R418). -/
def Obligations.QueueAndParametersKept : Prop :=
  ∀ (c : Instr) (s t : State), exec c s = .next t → t.pending = s.pending ∧ t.params = s.params

/-- While a cold or warm reset holds the switched region, or it is in logic power-off, every other command finds nothing
to act on (the model's choice for a command that cannot happen: log 3). -/
def Obligations.HeldRegionStandsStill : Prop :=
  ∀ (c : Instr) (s : State), s.awake = false → actsWhileHeld c = false → exec c s = .next s

/-! ## Resets (18; 15, R360, R361) -/

/-- POWER_ON and BROWN_OUT reset everything but the backup domain, which is initialised when vbak was lost, and record the lower
cause of those of one clk (R360, R361, R403); whether vbak was lost by a brown-out is a free value (log 134). The switched
region keeps its clk count alone, and every output of it stands at its clamp parameter (R62, R64). -/
def Obligations.PowerOnResetsTheSlice : Prop :=
  ∀ (s : State) (c : Instr) (cause : BitVec 4) (lost : Bool),
    (c = .powerOn lost ∧ cause = 1 ∨ c = .brownOut ∧ cause = 2 ∧ lost = Config.vbakLost s.ao.refClk) →
    (∀ h, s.ao.hold = some h → h.powerOn = true → h.reach = 0) →
    ∃ t h, exec c s = .next t ∧ t.ao.hold = some h ∧ h.reach = 0 ∧ h.powerOn = true ∧ cause ∈ h.raised
      ∧ h.since = s.ao.refClk ∧ t.ao.refClk = s.ao.refClk ∧ h.refOut = none
      ∧ ((∀ x, s.ao.hold = some x → x.powerOn = false) → h.cause = cause ∧ h.clk = s.sw.fr.clk)
      ∧ (∀ x, s.ao.hold = some x → x.powerOn = true → h.raised = x.raised ++ [cause]
          ∧ h.cause = if x.clk = s.sw.fr.clk ∧ cause.toNat < x.cause.toNat then cause else x.cause)
      ∧ t.ao.counts = (if lost then List.replicate 8 0 else s.ao.counts)
      ∧ t.ao.mode = (if lost then 1 else s.ao.mode) ∧ t.ao.bakLost = (lost || s.ao.bakLost)
      ∧ t.ao.dom = DomRec.clear ∧ t.ao.domFatalOut = false ∧ t.ao.rstReqOut = false ∧ t.ao.lock = false
      ∧ t.ao.tierOff = 0 ∧ (∀ x ∈ t.ao.tiers, x.st = .off ∧ x.req = false)
      ∧ t.ao.sleepAck = false ∧ t.ao.blockHolds = [] ∧ t.ao.swReset = []
      ∧ t.sw.life = { Life.reset with fuse := { rdReq := false, addr := 0, done := false, since := s.ao.refClk } }
      ∧ t.sw.port = Port.reset ∧ t.sw.arr.tags = [] ∧ t.sw.arr.data = [] ∧ t.sw.arr.mword = [] ∧ t.sw.arr.dir = []
      ∧ t.sw.home = Home.reset ∧ t.sw.map = MapSt.reset ∧ t.sw.pin = Pin.reset ∧ t.sw.gth = GthSt.reset
      ∧ t.sw.syn = Syn.reset ∧ t.sw.mbx = Mbx.reset ∧ t.sw.evt = Evt.reset ∧ t.sw.qos = Qos.reset
      ∧ t.sw.mp = Mp.reset ∧ t.sw.rep = Rep.reset ∧ t.sw.walk = none ∧ t.sw.cache.ev = []
      ∧ t.sw.fr = { Frame.reset with clk := s.sw.fr.clk }
      ∧ (∀ k, t.outputs k = s.params.clamp) ∧ t.heldOutputs = ⟨s.ao.tiers.map fun _ => false, false, false, false⟩

/-- PIN_RESET, CLOCK_FAIL, WATCHDOG and LOCKUP assert a warm reset: what it resets, what it keeps, and the outputs toward the
package reset controller (R404, R405, R409, R412); the outputs of the switched region stand at their clamp parameters, those of the
always-on region stay (R31, R62, R64, R417).
A reset of no wider reach than the one in progress is absorbed: it is counted at the release and changes nothing else
of the slice, but a lower cause of the same clk and reach is the one recorded; the causes whose conditions held in the clk of the
assertion join it in that clk (R360). -/
def Obligations.WarmResetCausesAndAbsorption : Prop :=
  (∀ (s : State) (c : Instr) (cause : BitVec 4), WarmCause s c cause →
     ∃ t h, exec c s = .next t ∧ t.ao.hold = some h ∧ h.cause = cause ∧ h.reach = 1 ∧ h.powerOn = false
       ∧ h.since = s.ao.refClk ∧ cause ∈ h.raised ∧ t.ao.blockHolds = []
       ∧ t.ao.domFatalOut = (if cause = 3 then false else s.ao.domFatalOut)
       ∧ t.ao.rstReqOut = (if cause = 3 then false else if cause = 7 then true
           else s.ao.rstReqOut || (s.sw.life.st = .running || s.sw.life.st = .quiescing || s.sw.life.st = .quiesced
             || s.sw.life.st = .fenced))
       ∧ t.ao.counts = s.ao.counts ∧ t.ao.dom = s.ao.dom ∧ t.ao.tiers = s.ao.tiers ∧ t.ao.tierOff = s.ao.tierOff
       ∧ t.sw.life.st = (if (s.sw.life.st = .safe ∨ s.sw.life.st = .fenced) ∧ s.sw.life.safeCause = 2 then .safe else .boot)
       ∧ t.sw.life.lehrUp = false ∧ t.sw.port = Port.reset ∧ t.sw.arr.dir = [] ∧ t.sw.home = Home.reset
       ∧ t.sw.q.req = [] ∧ t.sw.q.io = [] ∧ t.sw.q.gth = [] ∧ t.sw.pipe.rsp = [] ∧ t.sw.pipe.wr = []
       ∧ t.sw.fr.ramp = 0 ∧ t.sw.fr.switch = none ∧ t.sw.fr.copyA = s.sw.fr.copyA ∧ t.sw.fr.copyB = s.sw.fr.copyB
       ∧ t.sw.fr.active = s.sw.fr.active ∧ t.sw.fr.len = s.sw.fr.len
       ∧ t.sw.map = s.sw.map ∧ t.sw.pin.regions = s.sw.pin.regions ∧ t.sw.pin.aptTarget = s.sw.pin.aptTarget
       ∧ t.sw.gth.tmpl = s.sw.gth.tmpl ∧ t.sw.gth.ro = [] ∧ t.sw.syn.obj = s.sw.syn.obj ∧ t.sw.syn.nq = []
       ∧ t.sw.qos.cls = s.sw.qos.cls ∧ t.sw.cache.waySet = s.sw.cache.waySet ∧ t.sw.cache.groups = s.sw.cache.groups
       ∧ t.sw.cache.rt = s.sw.cache.rt ∧ t.sw.rep.map = s.sw.rep.map ∧ t.sw.rep.retired = s.sw.rep.retired
       ∧ (∀ k, t.outputs k = s.params.clamp) ∧ t.heldOutputs.tierReq = s.heldOutputs.tierReq
       ∧ t.heldOutputs.sleepAck = s.heldOutputs.sleepAck) ∧
  (∀ (s : State) (h : Hold), s.ao.hold = some h → h.reach.toNat ≤ 1 →
     ∃ t, exec .pinReset s = .next t ∧ t.sw = s.sw ∧ t.ao.hold = some { h with
         raised := h.raised ++ [3], besides := h.besides.filter fun c => c != 3, refOut := none
         cause := if h.clk = s.sw.fr.clk ∧ h.reach = 1 ∧ 3 < h.cause.toNat then 3 else h.cause }
       ∧ t.ao.domFatalOut = false ∧ t.ao.rstReqOut = false
       ∧ t.ao.pinLow = true
       ∧ { t.ao with
             hold := s.ao.hold, domFatalOut := s.ao.domFatalOut, rstReqOut := s.ao.rstReqOut, pinLow := s.ao.pinLow } = s.ao) ∧
  ∀ (s : State) (h : Hold) (c : Instr) (cause : BitVec 4), s.ao.hold = some h → h.reach.toNat ≤ 1 → h.clk = s.sw.fr.clk →
     cause ∈ h.besides → (c = .watchdog ∧ cause = 4 ∨ c = .clockFail ∧ cause = 7 ∨ c = .lockup ∧ cause = 8) →
     ∃ t, exec c s = .next t ∧ t.sw = s.sw ∧ t.ao.hold = some { h with
       raised := h.raised ++ [cause], besides := h.besides.filter fun x => x != cause
       cause := if h.reach = 1 ∧ cause.toNat < h.cause.toNat then cause else h.cause }

/-- Warm reset of the event unit clears pending, active, claimant, signalled, OCC, AGE, INFO and the delivery counts and keeps
masks, EVT_SRC_CFG and EVT_BANK_CTRL; power-on and a cold software reset set every field to its reset value; no block reset
clears or changes it, shown where the reset itself ends no command and no performance counter is enabled, so that it causes no event
(R377). -/
def Obligations.ResetsOfTheEventUnit : Prop :=
  (∀ (s : State) (lost : Bool), ∃ t, exec (.powerOn lost) s = .next t ∧ t.sw.evt = Evt.reset) ∧
  (∀ (s : State), s.ao.hold = none → ∃ t, exec .pinReset s = .next t
    ∧ (∀ id, Sparse.wf EvtSrc.reset s.sw.evt.src →
        t.sw.src id = { EvtSrc.reset with
          mask := (s.sw.src id).mask, cfg := (s.sw.src id).cfg, routed := fld (s.sw.src id).cfg 0 4 })
    ∧ ∀ n, Sparse.wf BankSt.reset s.sw.evt.bank →
        t.sw.evt.bankAt n = { BankSt.reset with en := (s.sw.evt.bankAt n).en }) ∧
  ∀ (s : State) (r : SwReset), s.ao.swReset = [r] → r.due ≠ 0 → r.due ≤ s.ao.refClk → s.ao.hold = none →
    ∃ t, exec .softwareResetRaise s = .next t
      ∧ (r.reach = 0 → t.sw.evt = Evt.reset)
      ∧ (r.reach.toNat ≥ 2 → (∀ k, (sget 0 s.sw.pmc.cfg k).getLsbD 0 = false) → s.sw.gth.tmplNext = [] → s.sw.walk = none →
          t.sw.evt = s.sw.evt)

/-- RESET_RELEASE raises a pin that is low (the model's choice: log 103); the ref_clk part releases when no pin is low, sclk is stable
and 16 cycles have passed, and the sclk part 2 clk later: RST_CAUSE, the counters, LEHR_EPOCH, the outputs no longer isolated, and
after a warm reset the sweep, which clears every KIND 0 entry, keeps every other, and takes 65,536 clk and 2 more for each dirty line
(R332, R360, R361, R405, R406, R410, R417). WARM_SWEEP_END, BLOCK_RESET_RELEASE and FUSE_TIMEOUT (R410, R412, R414, R360, R361,
R386). -/
def Obligations.ResetsAndHoldsEnd : Prop :=
  ((∀ (s : State) (h : Hold), s.ao.hold = some h → s.ao.asleep = false → h.refOut = none →
     s.ao.pinLow = false → 64 ≤ s.ao.sclk.good → h.since + 16 ≤ s.ao.refClk →
     exec .resetRelease s = .next { s with ao := { s.ao with hold := some { h with refOut := some s.sw.fr.clk } } }) ∧
   (∀ (s : State) (h : Hold), s.ao.hold = some h → h.refOut = none →
     (s.ao.pinLow = true → exec .resetRelease s = .next { s with ao := { s.ao with pinLow := false } })
     ∧ (s.ao.pinLow = false → s.ao.sclk.good < 64 ∨ s.ao.refClk < h.since + 16 → exec .resetRelease s = .next s)) ∧
   ∀ (s : State) (h : Hold) (c : Nat), s.ao.hold = some h → h.refOut = some c → c + 2 ≤ s.sw.fr.clk →
     ∃ t, exec .resetRelease s = .next t ∧ t.ao.hold = none ∧ t.ao.cause = ⟨h.cause, h.reach, 0⟩
       ∧ CountsAfter s.ao.mode h.raised s.ao.counts t.ao.counts
       ∧ t.ao.lehrEpoch = (if h.powerOn then s.ao.lehrEpoch else s.ao.lehrEpoch + 1)
       ∧ { t.ao with hold := s.ao.hold, cause := s.ao.cause, counts := s.ao.counts, counted := s.ao.counted
                     lehrEpoch := s.ao.lehrEpoch } = s.ao
       ∧ t.sw.port = { Port.reset with isolate := .none }
       ∧ (∀ k, (t.outputs k).outValid = 0 ∧ (t.outputs k).inCrd = 0 ∧ (t.outputs k).linkUp = false)
       ∧ t.sw.life.fuse = (if s.sw.life.fuse.done then s.sw.life.fuse
           else { s.sw.life.fuse with rdReq := true, since := s.ao.refClk })
       ∧ (h.reach ≠ 1 → { t.sw with port := s.sw.port, life := { t.sw.life with fuse := s.sw.life.fuse } } = s.sw)
       ∧ (h.reach = 1 → s.sw.arr.errs = [] → s.sw.arr.lost = [] → Sparse.wf 0 s.sw.arr.tags →
           t.sw.life.sweep = some (s.sw.fr.clk + 65536 + 2 * (s.sw.arr.tags.filter fun e =>
               tKind e.2 == 0 && tValid e.2 && tDirty e.2).length)
           ∧ (∀ loc, tKind (s.sw.tag loc) ≠ 0 → t.sw.tag loc = s.sw.tag loc)
           ∧ ∀ loc, tKind (s.sw.tag loc) = 0 → t.sw.tag loc = clearedTag (s.sw.tag loc))) ∧
  ((∀ (s : State) (c : Nat), s.awake = true → s.sw.life.sweep = some c → c ≤ s.sw.fr.clk →
     (∀ e ∈ s.sw.cache.evWait, e.why ≠ .sweep) →
     ∃ t, exec .warmSweepEnd s = .next t ∧ t.sw.life = { s.sw.life with sweep := none } ∧ t.ao = s.ao
       ∧ t.sw.walk = (if s.sw.life.st = .config then s.sw.walk.map (fun w => { w with held := false }) else s.sw.walk)
       ∧ { t.sw with life := s.sw.life, walk := s.sw.walk } = s.sw) ∧
   (∀ (s : State) (b : BlockHold) (l : List BlockHold), s.awake = true → s.ao.blockHolds = b :: l →
     b.due ≤ s.ao.refClk → b.dueClk ≤ s.sw.fr.clk →
     ∃ t, exec (.blockResetRelease b.unit) s = .next t ∧ t.ao.blockHolds = l ∧ t.ao.cause = ⟨b.cause, 2, b.unit⟩
       ∧ CountsAfter s.ao.mode b.raised s.ao.counts t.ao.counts
       ∧ { t.ao with blockHolds := s.ao.blockHolds, cause := s.ao.cause, counts := s.ao.counts, counted := s.ao.counted } = s.ao
       ∧ { t.sw with trc := s.sw.trc, pmc := s.sw.pmc } = s.sw
       ∧ t.sw.trc = (if b.unit = 4 then s.sw.trc.clear else s.sw.trc)
       ∧ t.sw.pmc = (if b.unit = 5 then s.sw.pmc.clear else s.sw.pmc)) ∧
   ∀ (s : State), s.awake = true → s.sw.life.fuse.done = false → s.sw.life.fuse.rdReq = true →
     s.sw.life.fuse.since + 1024 ≤ s.ao.refClk →
     exec .fuseTimeout s = .next { s with sw := { s.sw with life := { s.sw.life with
       st := if s.sw.life.st = .fenced then .fenced else .safe, safeCause := 2
       fuse := { s.sw.life.fuse with rdReq := false, done := true, since := s.ao.refClk } } } })

/-- SOFTWARE_RESET_RAISE 2 µs after a request: a cold or warm reset holds the slice, or a unit is held for 16 ref_clk cycles
(unit 7 until its zero fill ends, 393,216 clk). Two block resets that come together both record the lower cause, and one that comes
while a unit is held is absorbed: it changes nothing and is counted at that unit's release (R343, R360, R362, R414, R415). -/
def Obligations.SoftwareResetComesDue : Prop :=
  (∀ (s : State) (r : SwReset), s.ao.swReset = [r] → r.due ≠ 0 → r.due ≤ s.ao.refClk → s.ao.hold = none →
    ∃ t, exec .softwareResetRaise s = .next t ∧ t.ao.swReset = []
      ∧ (r.reach.toNat ≤ 1 → ∃ h, t.ao.hold = some h ∧ h.cause = r.cause ∧ h.reach = r.reach ∧ h.since = s.ao.refClk
          ∧ r.cause ∈ h.raised ∧ h.powerOn = false ∧ t.ao.counts = s.ao.counts ∧ t.sw.port = Port.reset
          ∧ t.sw.arr.dir = [] ∧ t.sw.rep.map = s.sw.rep.map ∧ t.sw.rep.retired = s.sw.rep.retired
          ∧ (r.reach = 0 → t.sw.arr.tags = [] ∧ t.sw.map = MapSt.reset ∧ t.ao.tierOff = 0))
      ∧ (r.reach.toNat ≥ 2 → s.ao.blockHolds = [] → t.ao.hold = none ∧ t.sw.life.st = s.sw.life.st
          ∧ t.ao.blockHolds = [⟨r.unit, r.cause, s.ao.refClk + 16,
            s.sw.fr.clk + (if r.unit = 7 then 393216 else 0), [r.cause]⟩])
      ∧ (∀ b l, r.reach.toNat ≥ 2 → s.ao.blockHolds = b :: l → t.sw = s.sw
          ∧ t.ao.blockHolds = { b with raised := b.raised ++ [r.cause] } :: l)) ∧
  ∀ (s : State) (r q : SwReset), s.ao.swReset = [r, q] → r.due ≠ 0 → r.due ≤ s.ao.refClk → s.ao.hold = none →
    s.ao.blockHolds = [] → r.reach = 2 → q.reach = 2 → r.unit ≠ q.unit →
    ∃ t, exec .softwareResetRaise s = .next t ∧ t.ao.swReset = []
      ∧ (t.ao.blockHolds.map fun b => (b.unit, b.cause, b.raised))
        = [(r.unit, if q.cause.toNat < r.cause.toNat then q.cause else r.cause, [r.cause, q.cause]),
            (q.unit, if q.cause.toNat < r.cause.toNat then q.cause else r.cause, [])]

/-- The counters RST_COUNT change in the releases, in a power-on that finds vbak lost, and in the keyed clear, and through
no other command (R361). -/
def Obligations.ResetCountersChangeOnlyAtReleases : Prop :=
  ∀ (c : Instr) (s t : State), exec c s = .next t → t.ao.counts ≠ s.ao.counts →
    c = .powerOn true ∨ (c = .brownOut ∧ Config.vbakLost s.ao.refClk = true) ∨ c = .resetRelease ∨ (∃ u, c = .blockResetRelease u) ∨ c = .rstCntClr

/-! ## The fuse read, the Lehr and firmware (17, R386 to R388; 14, R321 to R324) -/

/-- FUSE_WORD applies a word to the repair map and lowers fuse_rd_req, and after word 2047 the read ends: a word that is not
valid changes no repair state, and a spare marked bad is noted (R59, R386 to R388). Without a request on the port it changes nothing.
LEHR_RELEASE after a cold reset, every tier filled and the fuse read ended: the Lehr is out of reset in BOOT (R321). -/
def Obligations.FuseWordsThenTheLehr : Prop :=
  (∀ (s : State) (w : BitVec 32), s.awake = true → s.sw.life.fuse.done = false → s.sw.life.fuse.rdReq = true →
     s.sw.port.isolate = .none →
     ∃ t, exec (.fuseWord w) s = .next t ∧ t.ao = s.ao ∧ { t.sw with rep := s.sw.rep, life := s.sw.life } = s.sw
       ∧ { t.sw.life with fuse := s.sw.life.fuse } = s.sw.life
       ∧ t.sw.life.fuse.rdReq = false ∧ t.sw.life.fuse.since = s.ao.refClk
       ∧ (s.sw.life.fuse.addr = 2047 → t.sw.life.fuse.done = true)
       ∧ (s.sw.life.fuse.addr ≠ 2047 → t.sw.life.fuse.done = false ∧ t.sw.life.fuse.addr = s.sw.life.fuse.addr + 1)
       ∧ (bitAt w 0 = false → t.sw.rep = s.sw.rep)
       ∧ (fuseOk w = true → bitAt w 25 = true →
           (⟨fldN w 2 2, fldN w 4 4, fldN w 8 5, fldN w 1 1, fldN w 22 3⟩ : Place) ∈ t.sw.rep.bad
             ∧ t.sw.rep.map = s.sw.rep.map ∧ t.sw.rep.retired = s.sw.rep.retired)) ∧
  (∀ (s : State) (w : BitVec 32), s.sw.life.fuse.rdReq = false ∨ s.sw.port.isolate ≠ .none → exec (.fuseWord w) s = .next s) ∧
  (∀ (s : State), s.awake = true → s.sw.life.lehrUp = false → s.sw.life.fuse.done = true → s.sw.life.filled = 15 →
     s.sw.life.warm = false →
     exec .lehrRelease s = .next { s with sw := { s.sw with life := { s.sw.life with lehrUp := true } } })

/-! ## Tier power, fills and logic power-off (18, R418 to R425) -/

/-- TIER_TRANSITION_START, PWR_TIER_ACK, BANK_GROUP_ENABLE and TIER_READY: the steps of a tier's power-up and power-down
(R55, R418, R419, R423). -/
def Obligations.TierPowerSteps : Prop :=
  (∀ (s : State) (i : BitVec 2), s.ao.nextTransition s.params = some i.toNat →
    ∃ t, exec (.tierTransitionStart i) s = .next t
      ∧ TierBecomes s t i.toNat
          (if (s.ao.tier i.toNat).st = .off
            then { s.ao.tier i.toNat with st := .poweringUp, req := true, groups := 0, ready := false, fillAt := none }
            else { s.ao.tier i.toNat with st := .poweringDown, stamp := s.ao.refClk, ready := false, fillAt := none })
          (some i.toNat) (some s.ao.refClk)) ∧
  (∀ (s : State) (i : BitVec 2), (s.ao.tier i.toNat).req = true → (s.ao.tier i.toNat).ack = false →
    ∃ t, exec (.pwrTierAck i true) s = .next t
      ∧ TierBecomes s t i.toNat { s.ao.tier i.toNat with ack := true, stamp := s.ao.refClk } s.ao.moving s.ao.lastTransition) ∧
  (∀ (s : State) (i : BitVec 2), (s.ao.tier i.toNat).req = false → (s.ao.tier i.toNat).ack = true →
    (s.ao.tier i.toNat).falling = true →
    ∃ t, exec (.pwrTierAck i false) s = .next t ∧ TierBecomes s t i.toNat Tier.off none s.ao.lastTransition) ∧
  (∀ (s : State) (i : BitVec 2), (s.ao.tier i.toNat).rising = true → (s.ao.tier i.toNat).ack = true →
    (s.ao.tier i.toNat).groups < 4 →
    (s.ao.tier i.toNat).stamp + 2 * (s.ao.tier i.toNat).groups * s.params.refMHz ≤ s.ao.refClk →
    ∃ t, exec (.bankGroupEnable i) s = .next t
      ∧ TierBecomes s t i.toNat { s.ao.tier i.toNat with groups := (s.ao.tier i.toNat).groups + 1 }
          s.ao.moving s.ao.lastTransition) ∧
  (∀ (s : State) (i : BitVec 2), (s.ao.tier i.toNat).falling = true → (s.ao.tier i.toNat).groups = 1 →
    (s.ao.tier i.toNat).stamp + 2 * s.params.refMHz ≤ s.ao.refClk →
    ∃ t, exec (.bankGroupEnable i) s = .next t
      ∧ TierBecomes s t i.toNat { s.ao.tier i.toNat with groups := 0, stamp := s.ao.refClk, req := false }
          s.ao.moving s.ao.lastTransition) ∧
  ∀ (s : State) (i : BitVec 2), (s.ao.tier i.toNat).st = .poweringUp → (s.ao.tier i.toNat).ready = false →
    (s.ao.tier i.toNat).groups = 4 → (s.ao.tier i.toNat).stamp + 8 * s.params.refMHz ≤ s.ao.refClk →
    ∃ t, exec (.tierReady i) s = .next t
      ∧ TierBecomes s t i.toNat { s.ao.tier i.toNat with st := .filling, ready := true } none s.ao.lastTransition

/-- TIER_FILL_START starts the fill of the lowest ready tier once the fuse read has ended and while no other fill runs; TIER_FILL_END,
98,304 clk later: the tier is ON, its lines, metadata words and tag entries are zero but for RETIRED, which is set again in every
location of the retirement list, and the other tiers keep theirs (R386, R389, R397, R419). -/
def Obligations.TierFillZeroesTheTier : Prop :=
  (∀ (s : State) (i : BitVec 2), s.ao.hold = none → s.ao.asleep = false → s.sw.life.fuse.done = true →
    s.sw.life.st ≠ .safe → s.sw.life.st ≠ .fenced → (∀ x ∈ s.ao.tiers, x.fillAt = none) → (s.ao.tier i.toNat).ready = true →
    (∀ j < i.toNat, (s.ao.tier j).ready = false) →
    exec (.tierFillStart i) s = .next { s with ao := { s.ao with
      tiers := s.ao.tiers.set i.toNat { s.ao.tier i.toNat with fillAt := some s.sw.fr.clk } } }) ∧
  ∀ (s : State) (i : BitVec 2) (c : Nat), s.ao.hold = none → s.ao.asleep = false → (s.ao.tier i.toNat).fillAt = some c →
    c + 98304 ≤ s.sw.fr.clk →
    ∃ t, exec (.tierFillEnd i) s = .next t
      ∧ t.ao = { s.ao with tiers := s.ao.tiers.set i.toNat { s.ao.tier i.toNat with st := .on, ready := false, fillAt := none } }
      ∧ t.sw.life = { s.sw.life with filled := s.sw.life.filled ||| (1#4 <<< i.toNat) }
      ∧ (∀ loc, Sparse.wf 0 s.sw.arr.tags →
          ((∃ p ∈ s.sw.rep.retired, p.tier = i.toNat ∧ ∃ k < p.size, p.loc k = loc) →
            t.sw.tag loc = withRetired (if tierOf loc = i.toNat then 0 else s.sw.tag loc) true)
          ∧ ((∀ p ∈ s.sw.rep.retired, p.tier = i.toNat → ∀ k < p.size, p.loc k ≠ loc) →
            t.sw.tag loc = if tierOf loc = i.toNat then 0 else s.sw.tag loc))
      ∧ (∀ loc, Sparse.wf 0 s.sw.arr.mword →
          sget 0 t.sw.arr.mword loc = if tierOf loc = i.toNat then 0 else sget 0 s.sw.arr.mword loc)
      ∧ (∀ a, Memory.wf s.sw.arr.data →
          Memory.byte t.sw.arr.data a = if tierOf (a / 128) = i.toNat then 0 else Memory.byte s.sw.arr.data a)
      ∧ t.sw.arr.dir = s.sw.arr.dir ∧ { t.sw with arr := s.sw.arr, life := s.sw.life } = s.sw

/-- PWR_SLEEP_REQ, SLEEP_ACK and WAKE: logic power-off keeps what warm reset keeps, the state of the slice, an armed switch and the
event unit, whose occurrences of the clk have acted; the fuse request falls, and rises again at the wake (R56, R103, R376, R425). -/
def Obligations.LogicPowerOffKeepsTheSlice : Prop :=
  (∀ (s : State), exec .pwrSleepReq s = .next { s with ao := { s.ao with sleepReq := true } }) ∧
  (∀ (s : State), s.ao.sleepReq = true → s.awake = true → s.ao.moving = none → s.sw.walk = none → s.sw.life.sweep = none →
    s.sw.life.st ≠ .running → s.sw.life.st ≠ .quiescing →
    ∃ t, exec .sleepAck s = .next t ∧ t.ao = { s.ao with asleep := true, sleepAck := true }
      ∧ t.sw.life = { s.sw.life with fuse := { s.sw.life.fuse with rdReq := false } }
      ∧ (∀ id, Sparse.wf EvtSrc.reset s.sw.evt.src → (s.sw.src id).fresh = 0 → t.sw.src id = { s.sw.src id with routed := fld (s.sw.src id).cfg 0 4, freed := false })
      ∧ t.sw.evt.bank = s.sw.evt.bank ∧ t.sw.map = s.sw.map ∧ t.sw.rep = s.sw.rep ∧ t.sw.fr.switch = s.sw.fr.switch
      ∧ t.sw.tel.units = 4
      ∧ t.sw.syn.obj = s.sw.syn.obj ∧ t.sw.pin.regions = s.sw.pin.regions ∧ t.sw.gth.tmpl = s.sw.gth.tmpl
      ∧ t.sw.fr.copyA = s.sw.fr.copyA ∧ t.sw.fr.copyB = s.sw.fr.copyB ∧ t.sw.fr.ramp = 0 ∧ t.sw.port = Port.reset
      ∧ (∀ k, t.outputs k = s.params.clamp) ∧ t.heldOutputs = { s.heldOutputs with sleepAck := true }) ∧
  ∀ (s : State), s.ao.asleep = true → s.ao.hold = none →
    ∃ t, exec .wake s = .next t ∧ t.ao = { s.ao with asleep := false, sleepReq := false, sleepAck := false }
      ∧ t.sw.port = { Port.reset with isolate := if s.sw.life.st = .fenced then .fence else .none } ∧ t.ao.cause = s.ao.cause
      ∧ t.sw.life = { s.sw.life with fuse := if s.sw.life.fuse.done then s.sw.life.fuse
          else { s.sw.life.fuse with rdReq := true, since := s.ao.refClk } }
      ∧ { t.sw with port := s.sw.port, fr := s.sw.fr, life := s.sw.life } = s.sw
      ∧ { t.sw.fr with tickFrom := s.sw.fr.tickFrom } = s.sw.fr

/-- GTIME_CAPTURE carries gtime into the sclk copy two ref_clk edges later, and the always-on region counts the edge and ends a
cycle of its sclk monitor; at it a fuse request that has been low for one cycle rises for the next word (R54, R59, R406).
DROOP_EXCURSION adds 1 to the count of its detector (R54, R439). -/
def Obligations.GtimeAndDroops : Prop :=
  (∀ (s : State) (g : BitVec 64), s.awake = true → exec (.gtimeCapture g) s = .next { s with
    ao := { s.ao with refClk := s.ao.refClk + 1, sclk := s.ao.sclk.cycle true }
    sw := { s.sw with
      fr := { s.sw.fr with gtime := s.sw.fr.gcap2, gcap2 := s.sw.fr.gcap1, gcap1 := g }
      life := { s.sw.life with fuse :=
        if s.sw.port.isolate = .none ∧ s.sw.life.fuse.done = false ∧ s.sw.life.fuse.rdReq = false
            ∧ s.sw.life.fuse.since + 1 ≤ s.ao.refClk
        then { s.sw.life.fuse with rdReq := true, since := s.ao.refClk + 1 } else s.sw.life.fuse } } }) ∧
  (∀ (s : State) (g : BitVec 64), s.awake = false →
    exec (.gtimeCapture g) s = .next { s with ao := { s.ao with
      refClk := s.ao.refClk + 1, sclk := s.ao.sclk.cycle false } }) ∧
  ∀ (s : State) (i : BitVec 3), s.awake = true → i.toNat < s.sw.tel.live.droop.length →
    ∃ t, exec (.droopExcursion i) s = .next t
      ∧ t.sw.tel.live.droop.getD i.toNat 0 = s.sw.tel.live.droop.getD i.toNat 0 + 1
      ∧ (∀ j, j ≠ i.toNat → t.sw.tel.live.droop.getD j 0 = s.sw.tel.live.droop.getD j 0)
      ∧ { t.sw.tel.live with droop := s.sw.tel.live.droop } = s.sw.tel.live
      ∧ { t.sw.tel with live := s.sw.tel.live } = s.sw.tel ∧ { t.sw with tel := s.sw.tel } = s.sw ∧ t.ao = s.ao

/-! ## Ticks, frames, timers and the trace port (04, R85 to R89; 16, R367, R368; 19, R434, R437) -/

/-- TICK_TAKEN aligns frame clk 0: on time it changes no count; at another position it is a slip, unless it is the first
alignment (R87).
TICK_LOST, PMC_SLOT_REPORT and TRACE_TRANSFER, each with all that it changes (R60, R88, R434). -/
def Obligations.TicksSlotReportTrace : Prop :=
  ((∀ (s : State), s.awake = true → s.sw.fr.pos = 0 → exec .tickTaken s = .next { s with sw := { s.sw with
     fr := { s.sw.fr with
       aligned := true, tickLost := false, tickLostAt := if s.sw.fr.tickLost then s.sw.fr.clk else s.sw.fr.tickLostAt
       tickFrom := s.sw.fr.tickFrom.map fun _ => s.sw.fr.clk } } }) ∧
   ∀ (s : State), s.awake = true → s.sw.fr.pos ≠ 0 →
     ∃ t, exec .tickTaken s = .next t ∧ t.ao = s.ao ∧ t.sw.fr.aligned = true ∧ t.sw.fr.tickLost = false
       ∧ t.sw.fr.pos = 0 ∧ t.sw.fr.due = true ∧ t.sw.fr.cut = some s.sw.fr.pos ∧ t.sw.fr.clk = s.sw.fr.clk
       ∧ t.sw.fr.report = s.sw.fr.report ++ [({ s.sw.fr.now with total := s.sw.fr.pos }, s.sw.fr.clk - 1 + 9)]
       ∧ (s.sw.fr.aligned = true → t.sw.fr.slips = s.sw.fr.slips + 1 ∧ t.sw.fr.lastSlip = BitVec.ofNat 13 s.sw.fr.pos
           ∧ (t.sw.src 3).fresh = (s.sw.src 3).fresh + 1)
       ∧ (s.sw.fr.aligned = false → t.sw.fr.slips = s.sw.fr.slips ∧ t.sw.fr.lastSlip = s.sw.fr.lastSlip)
       ∧ t.sw.arr = s.sw.arr ∧ t.sw.q = s.sw.q ∧ t.sw.pipe = s.sw.pipe ∧ t.sw.home = s.sw.home) ∧
  ((∀ (s : State) (c : Nat), s.awake = true → s.sw.fr.tickFrom = some c → c + s.sw.fr.len + 64 ≤ s.sw.fr.clk →
     exec .tickLost s = .next { s with sw := { s.sw with fr := { s.sw.fr with
       tickLost := true, tickLostAt := if s.sw.fr.tickLost then s.sw.fr.tickLostAt else s.sw.fr.clk } } }) ∧
   (∀ (s : State) (x : SlotTot) (c : Nat), s.awake = true → s.sw.fr.report = [(x, c)] → c ≤ s.sw.fr.clk → s.sw.pmc.held = false →
     x.retired < 2 ^ 14 → x.wasted < 2 ^ 14 → x.front < 2 ^ 14 → x.back < 2 ^ 14 → x.bg < 2 ^ 14 → x.total < 2 ^ 14 →
     exec .pmcSlotReport s = .next { s with sw := { s.sw with
       fr := { s.sw.fr with report := [] }
       pmc := { s.sw.pmc with
         slot0 := BitVec.ofNat 32 (x.retired + x.wasted * 65536), slot1 := BitVec.ofNat 32 (x.front + x.back * 65536)
         slot2 := BitVec.ofNat 32 (x.bg + x.total * 65536), slotGtime := x.gtime } } }) ∧
   ∀ (s : State), s.awake = true → s.sw.port.isolate = .none → s.ao.held 4 = false →
     exec (.traceTransfer true) s = .next { s with sw := { s.sw with trc := { s.sw.trc with buf := s.sw.trc.buf.drop 1 } } })

/-- FRAME_BOUNDARY: what a due boundary latches, applies and resets, and the ages of the pending sources (R86, R89, R97, R309, R373,
R426); without one nothing changes.
A switch of the Stake copies at the boundary whose time it has reached: in one step, when the new copy has not more than
FRAME_CLKS / 8 valid entries beyond the active one (R103, R427). -/
def Obligations.FrameBoundaryActionsAndSwitch : Prop :=
  ((∀ (s : State), s.awake = true → s.sw.fr.due = true →
     ∃ t, exec .frameBoundary s = .next t ∧ t.ao = s.ao ∧ t.sw.fr.due = false ∧ t.sw.fr.frameNo = s.sw.fr.frameNo + 1
       ∧ t.sw.fr.bGtime = s.sw.fr.gtime ∧ t.sw.fr.len = s.sw.fr.lenNext.getD s.sw.fr.len ∧ t.sw.fr.lenNext = none
       ∧ t.sw.fr.minPtr = 0 ∧ t.sw.fr.bePtr = 0 ∧ t.sw.fr.granted = [] ∧ t.sw.mp.rdPtr = 0 ∧ t.sw.mp.rdGranted = []
       ∧ t.sw.mp.level = s.sw.mp.nextLevel ∧ t.sw.qos.next = []
       ∧ t.sw.cache.waySet = s.sw.cache.waySetNext.getD s.sw.cache.waySet ∧ t.sw.cache.waySetNext = none
       ∧ t.sw.fr.ramp = (if s.sw.life.st = .running ∨ s.sw.life.st = .quiescing ∨ s.sw.life.st = .quiesced
           then min 8 (s.sw.fr.ramp + 1) else s.sw.fr.ramp)
       ∧ (s.sw.fr.switch = none → t.sw.fr.active = s.sw.fr.active ∧ t.sw.fr.switch = none)
       ∧ (∀ id, (t.sw.src id).age = if (s.sw.src id).pend = true ∧ (s.sw.src id).age ≠ 255 then (s.sw.src id).age + 1
           else (s.sw.src id).age)
       ∧ t.sw.life = s.sw.life ∧ t.sw.arr = s.sw.arr ∧ t.sw.q = s.sw.q ∧ t.sw.pipe = s.sw.pipe ∧ t.sw.home = s.sw.home
       ∧ t.sw.port = s.sw.port ∧ t.sw.map = s.sw.map ∧ t.sw.syn = s.sw.syn ∧ t.sw.mbx = s.sw.mbx) ∧
   ∀ (s : State), s.sw.fr.due = false → exec .frameBoundary s = .next s) ∧
  (∀ (s : State) (w : Switch), s.awake = true → s.sw.fr.due = true → s.sw.fr.switch = some w → w.steps = 0 →
     s.sw.fr.lenNext = none →
     validCount (s.sw.fr.copy w.dest) s.sw.fr.len ≤ validCount (s.sw.fr.copy s.sw.fr.active) s.sw.fr.len + s.sw.fr.len / 8 →
     ∃ t, exec .frameBoundary s = .next t
       ∧ (w.gtime.toNat ≤ s.sw.fr.gtime.toNat → t.sw.fr.active = w.dest ∧ t.sw.fr.switch = none ∧ t.sw.fr.everSwitched = true
           ∧ (t.sw.src 4).fresh = (s.sw.src 4).fresh + 1)
       ∧ (s.sw.fr.gtime.toNat < w.gtime.toNat → t.sw.fr.active = s.sw.fr.active ∧ t.sw.fr.switch = some w)
       ∧ t.sw.fr.copyA = s.sw.fr.copyA ∧ t.sw.fr.copyB = s.sw.fr.copyB)

/-- WIRE_EVENT_FILTER: an output that differs from a level at which its input has been stable for FILT + 1 clk, 0 acting as 1, takes
it, and a rise is one occurrence of the source with INFO 0; before, nothing changes. The TICK_LOST bit is an input of the slice's
own, so the clk since its change count as well (R368).
WDOG_WARN 25 ms after the last restart of the armed watchdog, once; LEHR_TIMER of a Lehr out of reset (R367, R407), with which its
firmware restarts an armed watchdog (the model's choice: log 18). -/
def Obligations.EventSourcesRise : Prop :=
  (∀ (s : State) (w : Wire) (level : Bool) (n : Nat), s.awake = true →
     n = max 1 (fldN (s.sw.src (wireEvent w)).cfg 24 6) + 1 →
     (s.sw.evt.filtOut w ≠ level → sget 0 s.sw.evt.filtAt (wireEvent w) + n ≤ s.sw.fr.clk →
        (w = .tickLost → level = s.sw.fr.tickLost ∧ s.sw.fr.tickLostAt + n ≤ s.sw.fr.clk) →
        ∃ t, exec (.wireEventFilter w level) s = .next t ∧ t.sw.evt.filtOut w = level
          ∧ (∀ x, x ≠ w → t.sw.evt.filtOut x = s.sw.evt.filtOut x) ∧ sget 0 t.sw.evt.filtAt (wireEvent w) = s.sw.fr.clk
          ∧ (level = true → t.sw.src (wireEvent w) = { s.sw.src (wireEvent w) with
              fresh := (s.sw.src (wireEvent w)).fresh + 1
              freshInfo := if (s.sw.src (wireEvent w)).fresh = 0 then 0 else (s.sw.src (wireEvent w)).freshInfo })
          ∧ (∀ k, level = false ∨ k ≠ wireEvent w → t.sw.src k = s.sw.src k) ∧ t.sw.evt.bank = s.sw.evt.bank
          ∧ t.ao = s.ao ∧ { t.sw with evt := s.sw.evt, trc := s.sw.trc } = s.sw) ∧
     (s.sw.evt.filtOut w = level ∨ s.sw.fr.clk < sget 0 s.sw.evt.filtAt (wireEvent w) + n
         ∨ w = .tickLost ∧ (level ≠ s.sw.fr.tickLost ∨ s.sw.fr.clk < s.sw.fr.tickLostAt + n) →
       exec (.wireEventFilter w level) s = .next s)) ∧
  ((∀ (s : State) (r : Nat), s.awake = true → s.sw.life.wdogWarned = false → s.sw.life.wdog = some r →
     r + 25000 * s.params.refMHz ≤ s.ao.refClk →
     ∃ t, exec .wdogWarn s = .next t ∧ t.sw.life = { s.sw.life with wdogWarned := true } ∧ Raised s.sw t.sw 486 0
       ∧ t.ao = s.ao ∧ { t.sw with evt := s.sw.evt, trc := s.sw.trc, life := s.sw.life } = s.sw) ∧
   ∀ (s : State), s.awake = true → s.sw.life.lehrUp = true →
     ∃ t, exec .lehrTimer s = .next t ∧ (t.sw.src 485).fresh = (s.sw.src 485).fresh + 1 ∧ t.ao = s.ao
       ∧ (s.sw.life.wdog = none → Raised s.sw t.sw 485 0 ∧ { t.sw with evt := s.sw.evt, trc := s.sw.trc } = s.sw)
       ∧ ∀ r, s.sw.life.wdog = some r → { t.sw with evt := s.sw.evt, trc := s.sw.trc, pmc := s.sw.pmc }
           = { s.sw with life := { s.sw.life with wdog := some s.ao.refClk, wdogWarned := false } })

/-! ## The event unit (16, R369 to R374) -/

/-- EVT_DELIVERY of an enabled bank, in a slice that is not fenced, whose winner has been eligible for 4 clk: the bank becomes
signalled and counts; a LEHR bank of a Lehr out of reset changes nothing else, and a host bank sends its write of 4 B to its message
address, spending a credit, a NORMAL one after FAST ones and IO responses (R370). A bank that is disabled or signalled sends nothing,
nor does one without a winner. -/
def Obligations.EventDelivery : Prop :=
  (∀ (s : State) (b : Bank) (id c : Nat), s.ao.hold = none → s.ao.asleep = false → bankNum b < 2 ∨ bankNum b = 10 →
    s.sw.life.lehrUp = true → s.sw.life.st ≠ .fenced → (s.sw.evt.bankAt (bankNum b)).en = true →
    (s.sw.evt.bankAt (bankNum b)).signalled = false → s.sw.evt.winner (bankNum b) = some id →
    (bankNum b, id, c) ∈ s.sw.evt.cand → c + 4 ≤ s.sw.fr.clk →
    exec (.evtDelivery b) s = .next { s with sw := { s.sw with evt := { s.sw.evt with
      bank := sset BankSt.reset s.sw.evt.bank (bankNum b) { s.sw.evt.bankAt (bankNum b) with
        signalled := true, sent := (s.sw.evt.bankAt (bankNum b)).sent + 1 } } } }) ∧
  (∀ (s : State) (b : Bank), (s.sw.evt.bankAt (bankNum b)).en = false ∨ (s.sw.evt.bankAt (bankNum b)).signalled = true
      ∨ s.sw.life.st = .fenced ∨ s.sw.evt.winner (bankNum b) = none → exec (.evtDelivery b) s = .next s) ∧
  ∀ (s : State) (x : Target) (b : Bank) (id c : Nat), s.ao.hold = none → s.ao.asleep = false → x ≠ .lehr →
    (b = .fast x ∨ b = .normal x ∧ s.sw.fastWaits = false ∧ s.sw.ioRespWaits = false) → s.sw.life.st ≠ .fenced →
    (s.sw.evt.bankAt (bankNum b)).en = true → (s.sw.evt.bankAt (bankNum b)).signalled = false →
    s.sw.evt.winner (bankNum b) = some id → (bankNum b, id, c) ∈ s.sw.evt.cand → c + 4 ≤ s.sw.fr.clk →
    s.sw.port.free .io = true → s.sw.port.credOut.io ≠ 0 →
    ∃ t f, exec (.evtDelivery b) s = .next t ∧ t.sw.port.ioOut = some (ioFlit f)
      ∧ f.op = 0x03 ∧ f.src = s.params.sliceRid ∧ f.len = 3 ∧ f.status = 0 ∧ f.priv = 3 ∧ f.domain = 0
      ∧ f.addr = (match x with
          | .host0 => s.params.evt0
          | .host1 => s.params.evt1
          | .host2 => s.params.evt2
          | _ => s.params.evt3) + (if b = .fast x then 32 else 0)
      ∧ f.payload = BitVec.ofNat 512 (s.params.sliceIndex.toNat + (if b = .fast x then 128 else 0)
          + 256 * (match x with
            | .host0 => 1
            | .host1 => 2
            | .host2 => 3
            | _ => 4)
          + 65536 * ((s.sw.evt.bankAt (bankNum b)).sent + 1).toNat)
      ∧ t.sw.port.credOut.io = s.sw.port.credOut.io - 1
      ∧ (t.sw.evt.bankAt (bankNum b)).signalled = true
      ∧ (t.sw.evt.bankAt (bankNum b)).sent = (s.sw.evt.bankAt (bankNum b)).sent + 1
      ∧ t.ao = s.ao ∧ { t.sw with evt := s.sw.evt, pmc := s.sw.pmc, trc := s.sw.trc, port := s.sw.port } = s.sw

/-- EVT_CLAIM returns the winner with its OCC, clears its pending bit, OCC and AGE, and makes it active with this bank as its
claimant; without a winner it returns 0x3FF from a signalled bank and 0 from another. EVT_COMPLETE of an active ID by its
claimant clears the active bit, the source being eligible again from the next clk, and any other write of it changes no source (R371,
R372, R375). An occurrence of the same clk is noted apart, and a claim does not take it (R9, R375). -/
def Obligations.EventClaimAndComplete : Prop :=
  (∀ (s : State) (a : WinAcc) (off : Nat) (v : BitVec 32) (id : Nat), AtFront s false a off v →
    0x3000 ≤ off → off < 0x3100 → off % 0x20 = 0 → s.sw.evt.winner (bankNum (bankOfOff off)) = some id →
    ∃ t, exec .evtClaim s = .next t
      ∧ t.sw.src id = { s.sw.src id with
          pend := false, occ := 0, age := 0, active := true, claimant := some (bankOfOff off) }
      ∧ (Sparse.wf EvtSrc.reset s.sw.evt.src → ∀ k, k ≠ id → t.sw.src k = s.sw.src k)
      ∧ (t.sw.evt.bankAt (bankNum (bankOfOff off))).signalled = false
      ∧ Answered s t a off (id + (s.sw.src id).occ.toNat * 65536)
      ∧ t.ao = s.ao ∧ { t.sw with evt := s.sw.evt, pipe := s.sw.pipe } = s.sw) ∧
  (∀ (s : State) (a : WinAcc) (off : Nat) (v : BitVec 32), AtFront s false a off v →
    0x3000 ≤ off → off < 0x3100 → off % 0x20 = 0 → s.sw.evt.winner (bankNum (bankOfOff off)) = none →
    ∃ t, exec .evtClaim s = .next t ∧ t.sw.evt.src = s.sw.evt.src
      ∧ (t.sw.evt.bankAt (bankNum (bankOfOff off))).signalled = false
      ∧ Answered s t a off (if (s.sw.evt.bankAt (bankNum (bankOfOff off))).signalled then 0x3FF else 0)
      ∧ t.ao = s.ao ∧ { t.sw with evt := s.sw.evt, pipe := s.sw.pipe } = s.sw) ∧
  ∀ (s : State) (a : WinAcc) (off : Nat) (v : BitVec 32), AtFront s true a off v →
    0x3000 ≤ off → off < 0x3100 → off % 0x20 = 4 →
    ∃ t, exec .evtComplete s = .next t ∧ t.sw.evt.bank = s.sw.evt.bank ∧ Answered s t a off 0
      ∧ (1 ≤ fldN v 0 10 → fldN v 0 10 ≤ 28 → (s.sw.src (fldN v 0 10)).active = true →
          (s.sw.src (fldN v 0 10)).claimant = some (bankOfOff off) →
          t.sw.src (fldN v 0 10) = { s.sw.src (fldN v 0 10) with active := false, claimant := none, freed := true })
      ∧ (Sparse.wf EvtSrc.reset s.sw.evt.src → ∀ k,
          (k = fldN v 0 10 → (s.sw.src k).active = false ∨ (s.sw.src k).claimant ≠ some (bankOfOff off)) →
          t.sw.src k = s.sw.src k)
      ∧ t.ao = s.ao ∧ { t.sw with evt := s.sw.evt, pipe := s.sw.pipe } = s.sw

/-- EVT_PEND_SET, EVT_PEND_CLR, EVT_MASK_SET and EVT_MASK_CLR act on every source that a 1 names and on no other (R374). -/
def Obligations.EventBitmapWrites : Prop :=
  ∀ (s : State) (a : WinAcc) (off : Nat) (v : BitVec 32), AtFront s true a off v → Sparse.wf EvtSrc.reset s.sw.evt.src →
    (0x2000 ≤ off → off < 0x2040 → ∃ t, exec .evtPendSet s = .next t ∧ Answered s t a off 0
      ∧ (∀ id, Named ((off - 0x2000) / 4) v id → t.sw.src id = { s.sw.src id with
          fresh := (s.sw.src id).fresh + 1, freshInfo := if (s.sw.src id).fresh = 0 then 0 else (s.sw.src id).freshInfo })
      ∧ (∀ id, ¬ Named ((off - 0x2000) / 4) v id → t.sw.src id = s.sw.src id)
      ∧ t.ao = s.ao ∧ { t.sw with evt := s.sw.evt, pipe := s.sw.pipe, trc := s.sw.trc } = s.sw) ∧
    (0x2040 ≤ off → off < 0x2080 → ∃ t, exec .evtPendClr s = .next t ∧ Answered s t a off 0
      ∧ (∀ id, Named ((off - 0x2040) / 4) v id → t.sw.src id = { s.sw.src id with pend := false, occ := 0, age := 0 })
      ∧ (∀ id, ¬ Named ((off - 0x2040) / 4) v id → t.sw.src id = s.sw.src id)
      ∧ t.ao = s.ao ∧ { t.sw with evt := s.sw.evt, pipe := s.sw.pipe } = s.sw) ∧
    (0x2080 ≤ off → off < 0x20C0 → ∃ t, exec .evtMaskSet s = .next t ∧ Answered s t a off 0
      ∧ (∀ id, Named ((off - 0x2080) / 4) v id → t.sw.src id = { s.sw.src id with mask := true })
      ∧ (∀ id, ¬ Named ((off - 0x2080) / 4) v id → t.sw.src id = s.sw.src id)
      ∧ t.ao = s.ao ∧ { t.sw with evt := s.sw.evt, pipe := s.sw.pipe } = s.sw) ∧
    (0x20C0 ≤ off → off < 0x2100 → ∃ t, exec .evtMaskClr s = .next t ∧ Answered s t a off 0
      ∧ (∀ id, Named ((off - 0x20C0) / 4) v id → t.sw.src id = { s.sw.src id with mask := false })
      ∧ (∀ id, ¬ Named ((off - 0x20C0) / 4) v id → t.sw.src id = s.sw.src id)
      ∧ t.ao = s.ao ∧ { t.sw with evt := s.sw.evt, pipe := s.sw.pipe } = s.sw)

/-! ## Window rows of the mailboxes, the always-on region and the counters (14, R327, R331; 15, R357 to R362; 19, R431) -/

/-- MBX_CMD_WRITE writes the bytes of the access, or is discarded with WR_LOST while STATE is RUNNING; a doorbell posts a
command with its SEQ and raises its event, or sets OVERRUN; HOST_EPOCH is written alone (R327, R331). -/
def Obligations.MailboxWindowRows : Prop :=
  ∀ (s : State) (a : WinAcc) (off : Nat) (v : BitVec 32), AtFront s true a off v → 0x1000 ≤ off → off < 0x1400 →
    (off % 0x100 < 0x40 → ∃ t, exec .mbxCmdWrite s = .next t ∧ Answered s t a off 0
      ∧ t.sw.mbx.ch (chanOf off) = (if (s.sw.mbx.ch (chanOf off)).st = .running
          then { s.sw.mbx.ch (chanOf off) with wrLost := true }
          else { s.sw.mbx.ch (chanOf off) with
            cmd := putBytes (s.sw.mbx.ch (chanOf off)).cmd (off % 0x40) (a.f.len.toNat + 1)
              (bytesN a.f.payload 0 (a.f.len.toNat + 1)) })
      ∧ (∀ m, m ≠ chanOf off → t.sw.mbx.ch m = s.sw.mbx.ch m) ∧ t.sw.mbx.last = s.sw.mbx.last
      ∧ t.ao = s.ao ∧ { t.sw with mbx := s.sw.mbx, pipe := s.sw.pipe } = s.sw) ∧
    (off % 0x100 = 0x80 → ∃ t, exec .mbxDoorbell s = .next t ∧ Answered s t a off 0
      ∧ ((s.sw.mbx.ch (chanOf off)).st = .idle ∨ (s.sw.mbx.ch (chanOf off)).st = .done →
          t.sw.mbx.ch (chanOf off)
            = { s.sw.mbx.ch (chanOf off) with st := .posted, seq := fld v 0 16, rereads := 0, rereadAt := none }
          ∧ (t.sw.src (480 + (chanOf off).toNat)).fresh = (s.sw.src (480 + (chanOf off).toNat)).fresh + 1)
      ∧ ((s.sw.mbx.ch (chanOf off)).st = .posted ∨ (s.sw.mbx.ch (chanOf off)).st = .running →
          t.sw.mbx.ch (chanOf off) = { s.sw.mbx.ch (chanOf off) with overrun := true })
      ∧ (∀ m, m ≠ chanOf off → t.sw.mbx.ch m = s.sw.mbx.ch m) ∧ t.ao = s.ao
      ∧ { t.sw with mbx := s.sw.mbx, pipe := s.sw.pipe, evt := s.sw.evt, pmc := s.sw.pmc, trc := s.sw.trc } = s.sw) ∧
    (off % 0x100 = 0x88 → ∃ t, exec .mbxEpochWrite s = .next t ∧ Answered s t a off 0
      ∧ t.ao = { s.ao with hostEpoch := s.ao.hostEpoch.set (chanOf off).toNat (fld v 16 16) }
      ∧ { t.sw with pipe := s.sw.pipe } = s.sw)

/-- HST_DOMAIN_CLEAR, RST_CNT_CLR, the three RST_SWREQ rows and RST_PWR_CTRL_WRITE, each with all that it changes beside the
answer to the access (R357, R361, R362, R421, R423). The record before a clear is kept for a declaration of the same clk, and a counter
that a release of the same clk counts reads 1 after the clear (R9, R361). A software reset counts its 2 µs from its response. -/
def Obligations.AlwaysOnWindowRows : Prop :=
  ∀ (s : State) (a : WinAcc) (off : Nat) (v : BitVec 32), AtFront s true a off v →
    (off = 0x104 → ∃ t, exec .hstDomainClear s = .next t ∧ Answered s t a off 0
      ∧ t.ao = (if v.getLsbD 0 = true ∧ s.sw.life.st ≠ .fenced then { s.ao with dom := DomRec.clear } else s.ao)
      ∧ t.sw.life = (if v.getLsbD 0 = true ∧ s.sw.life.st ≠ .fenced
          then { s.sw.life with domClr := some (s.sw.life.domClr.getD s.ao.dom) } else s.sw.life)
      ∧ { t.sw with pipe := s.sw.pipe, life := s.sw.life } = s.sw) ∧
    (off = 0x7024 → ∃ t, exec .rstCntClr s = .next t ∧ Answered s t a off 0
      ∧ t.ao.counts.length = 8
      ∧ (∀ i < 8, t.ao.counts.getD i 0 = if ∃ c ∈ s.ao.counted, c.toNat = i + 1 then 1 else 0)
      ∧ { t.ao with counts := s.ao.counts } = s.ao ∧ { t.sw with pipe := s.sw.pipe } = s.sw) ∧
    (off = 0x7020 → fldN v 16 2 = 0 → ∃ t, exec .rstSwreqCold s = .next t ∧ Answered s t a off 0
      ∧ t.ao = { s.ao with swReset := s.ao.swReset ++ [⟨6, 0, 0, 0⟩] } ∧ { t.sw with pipe := s.sw.pipe } = s.sw) ∧
    (off = 0x7020 → fldN v 16 2 = 1 → ∃ t, exec .rstSwreqWarm s = .next t ∧ Answered s t a off 0
      ∧ t.ao = { s.ao with swReset := s.ao.swReset ++ [⟨6, 1, 0, 0⟩] } ∧ { t.sw with pipe := s.sw.pipe } = s.sw) ∧
    (off = 0x7020 → fldN v 16 2 = 2 → ∃ t, exec .rstSwreqBlock s = .next t ∧ Answered s t a off 0
      ∧ t.ao = { s.ao with swReset := s.ao.swReset ++ [⟨6, 2, fld v 18 3, 0⟩] } ∧ { t.sw with pipe := s.sw.pipe } = s.sw) ∧
    (off = 0x7030 → s.ao.tiers.length = 4 → ∃ t, exec .rstPwrCtrlWrite s = .next t ∧ Answered s t a off 0
      ∧ t.ao.tierOff = fld v 0 4 ∧ { t.ao with tierOff := s.ao.tierOff, tiers := s.ao.tiers } = s.ao
      ∧ (∀ i < 4, v.getLsbD i = s.ao.tierOff.getLsbD i → t.ao.tier i = s.ao.tier i)
      ∧ (∀ i < 4, v.getLsbD i = true → s.ao.tierOff.getLsbD i = false →
          ((s.ao.tier i).st = .poweringUp ∨ (s.ao.tier i).st = .filling → t.ao.tier i = { s.ao.tier i with st := .pendingOff })
          ∧ ((s.ao.tier i).st = .pendingReenable → t.ao.tier i = { s.ao.tier i with st := .poweringDown }))
      ∧ (∀ i < 4, v.getLsbD i = false → s.ao.tierOff.getLsbD i = true →
          ((s.ao.tier i).st = .poweringDown → t.ao.tier i = { s.ao.tier i with st := .pendingReenable })
          ∧ ((s.ao.tier i).st = .pendingOff →
            t.ao.tier i = { s.ao.tier i with st := if (s.ao.tier i).ready then .filling else .poweringUp }))
      ∧ { t.sw with pipe := s.sw.pipe } = s.sw)

/-- PMC_CNT_CLR clears the live count ahead of what the same clk counts, and writes EN, FILT and OVF, which a wrap of the same clk
leaves set (R9, R431); HST_APT_SYNC_READ returns the count before it and adds 1;
REGISTER_WRITE sets the fields of a register by their access codes, shown for EVT_BANK_CTRL, RST_MODE, RST_LOCK, TEL_CTRL and
HST_QOS_MISS_SLOT (R7, R296, R318, R361, R363, R374, R431). -/
def Obligations.CounterAndPlainRegisterWrites : Prop :=
  (∀ (s : State) (a : WinAcc) (off : Nat) (v : BitVec 32), AtFront s true a off v →
    0x4000 ≤ off → off < 0x4C00 → 0x80 ≤ off % 0x100 → off % 0x100 < 0xA0 → v.getLsbD 2 = true →
    ∃ t, exec .pmcCntClr s = .next t ∧ Answered s t a off 0
      ∧ sget 0 t.sw.pmc.cnt (cfgIndex off) = BitVec.ofNat 48 (sget 0 s.sw.pmc.now (cfgIndex off))
      ∧ (sget 0 t.sw.pmc.cfg (cfgIndex off)).getLsbD 0 = v.getLsbD 0
      ∧ (sget 0 t.sw.pmc.cfg (cfgIndex off)).getLsbD 1 = v.getLsbD 1
      ∧ (sget 0 t.sw.pmc.cfg (cfgIndex off)).getLsbD 3
          = ((sget 0 s.sw.pmc.cfg (cfgIndex off)).getLsbD 3 && (s.sw.pmc.wrapped.contains (cfgIndex off) || !v.getLsbD 3))
      ∧ { t.sw.pmc with cnt := s.sw.pmc.cnt, cfg := s.sw.pmc.cfg } = s.sw.pmc
      ∧ t.ao = s.ao ∧ { t.sw with pmc := s.sw.pmc, pipe := s.sw.pipe } = s.sw) ∧
  (∀ (s : State) (a : WinAcc) (v : BitVec 32), AtFront s false a 0x140 v → s.sw.aptBefore a.f.src a.acc = false →
    ∃ t, exec .hstAptSyncRead s = .next t ∧ Answered s t a 0x140 s.sw.pin.syncCount.toNat
      ∧ t.sw.pin = { s.sw.pin with syncCount := s.sw.pin.syncCount + 1 }
      ∧ t.ao = s.ao ∧ { t.sw with pin := s.sw.pin, pipe := s.sw.pipe } = s.sw) ∧
  ∀ (s : State) (a : WinAcc) (off : Nat) (v : BitVec 32), AtFront s true a off v →
    (0x3000 ≤ off → off < 0x3100 → off % 0x20 = 8 → ∃ t, exec .registerWrite s = .next t ∧ Answered s t a off 0
      ∧ t.sw.evt.bankAt (bankNum (bankOfOff off)) = { s.sw.evt.bankAt (bankNum (bankOfOff off)) with en := v.getLsbD 0 }
      ∧ t.sw.evt.src = s.sw.evt.src ∧ t.ao = s.ao ∧ { t.sw with evt := s.sw.evt, pipe := s.sw.pipe } = s.sw) ∧
    (off = 0x7018 → ∃ t, exec .registerWrite s = .next t ∧ Answered s t a off 0
      ∧ t.ao = { s.ao with mode := if s.ao.lock then s.ao.mode else fld v 0 2, bakLost := s.ao.bakLost && !v.getLsbD 8 }
      ∧ { t.sw with pipe := s.sw.pipe } = s.sw) ∧
    (off = 0x701C → ∃ t, exec .registerWrite s = .next t ∧ Answered s t a off 0
      ∧ t.ao = { s.ao with lock := s.ao.lock || v.getLsbD 0 } ∧ { t.sw with pipe := s.sw.pipe } = s.sw) ∧
    (off = 0x8004 → ∃ t, exec .registerWrite s = .next t ∧ Answered s t a off 0
      ∧ t.sw.tel = { s.sw.tel with period := fld v 0 8, since := 0 } ∧ t.ao = s.ao
      ∧ { t.sw with tel := s.sw.tel, pipe := s.sw.pipe } = s.sw) ∧
    (off = 0x188 → ∃ t, exec .registerWrite s = .next t ∧ Answered s t a off 0
      ∧ (∀ i < 32, t.sw.qos.missSlot.getLsbD i = (s.sw.qos.missSlot.getLsbD i && !v.getLsbD i))
      ∧ (∀ i, 32 ≤ i → t.sw.qos.missSlot.getLsbD i = s.sw.qos.missSlot.getLsbD i)
      ∧ t.ao = s.ao ∧ { t.sw with qos := { t.sw.qos with missSlot := s.sw.qos.missSlot }, pipe := s.sw.pipe } = s.sw)

/-! ## Sync objects and notifies (11, R274 to R283; 09, R239) -/

/-- SYNC_SIGNAL, SYNC_RESET and SYNC_ARM act on their object at c8 with the firing check, and answer OK at c14 (R277, R278). -/
def Obligations.SyncWindowOperations : Prop :=
  ∀ (s : State) (a : SynAcc) (l : List SynAcc), s.awake = true → s.sw.pipe.syn = a :: l → a.acc + 8 ≤ s.sw.fr.clk →
    (a.op = .signal → ∃ t, exec .syncSignal s = .next t
      ∧ ObjectBecomes s.sw t.sw a.obj (fired { s.sw.syncObj a.obj with
          counter := (s.sw.syncObj a.obj).counter + BitVec.ofNat 64 (bytesN a.f.payload 0 8) })
      ∧ (∃ r ∈ t.sw.pipe.rsp, r.due = max s.sw.fr.clk (a.acc + 14) ∧ r.body = .io (ioAnswer s.params a.f ioOK 0))
      ∧ t.ao = s.ao ∧ { t.sw with syn := s.sw.syn, pipe := s.sw.pipe, pmc := s.sw.pmc, evt := s.sw.evt, trc := s.sw.trc } = s.sw) ∧
    (a.op = .reset → ∃ t, exec .syncReset s = .next t
      ∧ ObjectBecomes s.sw t.sw a.obj { s.sw.syncObj a.obj with counter := 0, thr := 0, armed := false, pend := false }
      ∧ (∃ r ∈ t.sw.pipe.rsp, r.due = max s.sw.fr.clk (a.acc + 14) ∧ r.body = .io (ioAnswer s.params a.f ioOK 0))
      ∧ t.ao = s.ao ∧ { t.sw with syn := s.sw.syn, pipe := s.sw.pipe, pmc := s.sw.pmc, evt := s.sw.evt, trc := s.sw.trc } = s.sw) ∧
    (a.op = .arm → ∃ t, exec .syncArm s = .next t
      ∧ (bytesN a.f.payload 0 4 % 2 ^ 31 = 0 →
          ObjectBecomes s.sw t.sw a.obj { s.sw.syncObj a.obj with armed := false })
      ∧ (bytesN a.f.payload 0 4 % 2 ^ 31 ≠ 0 → ObjectBecomes s.sw t.sw a.obj (fired { s.sw.syncObj a.obj with
          thr := (if bytesN a.f.payload 0 4 < 2 ^ 31 then (s.sw.syncObj a.obj).counter else (s.sw.syncObj a.obj).thr)
            + BitVec.ofNat 64 (bytesN a.f.payload 0 4 % 2 ^ 31)
          armed := true }))
      ∧ (∃ r ∈ t.sw.pipe.rsp, r.due = max s.sw.fr.clk (a.acc + 14) ∧ r.body = .io (ioAnswer s.params a.f ioOK 0))
      ∧ t.ao = s.ao ∧ { t.sw with syn := s.sw.syn, pipe := s.sw.pipe, pmc := s.sw.pmc, evt := s.sw.evt, trc := s.sw.trc } = s.sw)

/-- At RES an accepted contribution writes its context's lines at c20 with COUNT one up, and is acknowledged at c28; an INT
element is stored by the arming contribution and added modulo 2^32 by a later one, a MINMAX element keeps the extreme, a TREE16
element goes to its slot, and an EXACT accumulator that is not resolved gains the exact addend; the contribution that completes
EXPECT closes the context: its lines and header become zero with ROUND one up and CLOSED, and its readout entry takes the
accumulated lines (R107, R213, R219, R226, R231, R233 to R236, R443). INTERNAL_SIGNAL: the oldest close whose outputs have all
completed adds 1 to its object, with the firing check, and leaves the readout queue (R239, R278). -/
def Obligations.InternalSignalOfTheOldestClose : Prop :=
  (∀ (s : State) (c : Staged) (e : GthEnt) (x : GthTarget), GthAtRes s c e x → x.t.infmt ≠ 7 →
    hCount (headerAt s x) ≤ x.t.expect → x.t.expect < 2 ^ 17 →
    ∃ t, exec .slotDecide s = .next t ∧ ClkEnds s t { s.sw with gth := t.sw.gth } ∧ t.sw.pipe.staged = []
      ∧ AnswersWith t (c.acc + 28) (.rsp ⟨0xC4, e.g.txn, e.g.src, s.params.sliceRid, 0, 0⟩)
      ∧ t.sw.pipe.wr.map (fun w => w.loc) = x.locs ∧ (∀ w ∈ t.sw.pipe.wr, w.flight = some c.id ∧ w.at_ = none)
      ∧ (∀ a ∈ t.sw.pipe.acc, a.write = true → a.at_ = c.acc + 20) ∧ (∀ a ∈ t.sw.pipe.acc, a.write = false → a.at_ = c.acc + 12)
      ∧ (hCount (headerAt s x) < x.t.expect → t.sw.gth.ro = []
          ∧ (Sparse.wf 0 s.sw.gth.armed → sget 0 t.sw.gth.armed x.region
              = sget 0 s.sw.gth.armed x.region + if hCount (headerAt s x) = 0 then 1 else 0)
          ∧ (∀ w, t.sw.pipe.wr.head? = some w → hCount w.line.hdr = hCount (headerAt s x) + 1
              ∧ hRound w.line.hdr = hRound (headerAt s x) ∧ w.line.hdr.getLsbD 36 = false)
          ∧ (x.t.mode = 2#2 → x.t.opt = false → ∀ w k v y, t.sw.pipe.wr = [w] → k < x.t.n → k < 32 → elemOf x.t e.g k = some (v, y) →
              bytesN w.line.data (4 * k) 4 = ((if hCount (headerAt s x) = 0 then 0
                  else bytesN (s.sw.arr.stored w.loc).data (4 * k) 4) + (sextN (8 * elemSize x.t.infmt) v % 2 ^ 32).toNat) % 2 ^ 32)
          ∧ (x.t.mode = 3#2 → 5 ≤ x.t.infmt.toNat → ∀ w k v y u, t.sw.pipe.wr = [w] → k < x.t.n → k < 32 →
              elemOf x.t e.g k = some (v, y) → u = (sextN (8 * elemSize x.t.infmt) v % 2 ^ 32).toNat →
              bytesN w.line.data (4 * k) 4 = if hCount (headerAt s x) = 0 then u
                else minmaxInt x.t.opt (bytesN (s.sw.arr.stored w.loc).data (4 * k) 4) u)
          ∧ (x.t.mode = 1#2 → ∀ w k v y, t.sw.pipe.wr[e.g.cidx.toNat]? = some w → k < x.t.n → k < 32 →
              elemOf x.t e.g k = some (v, y) → bytesN w.line.data (4 * k) 4 = toFp32 y)
          ∧ (x.t.mode = 0#2 → x.t.opt = false → (hCount (headerAt s x) + 1) % 16 ≠ 0 →
              (hCount (headerAt s x) = 0 → hPoison (headerAt s x) = false) →
              ∀ i w k v y o, t.sw.pipe.wr[i]? = some w → k < x.t.n → i = k / 8 → elemOf x.t e.g k = some (v, y) →
                o = accOf (bytesN (s.sw.arr.stored w.loc).data (16 * (k % 8)) 16) → (∀ z ∈ o.c, z < 15) → o.neg < 31 →
                accValue (accOf (bytesN w.line.data (16 * (k % 8)) 16)) = accValue o + (addend x.t.anchor y).1))
      ∧ (hCount (headerAt s x) = x.t.expect → (∀ w ∈ t.sw.pipe.wr, w.line.data = 0 ∧ w.line.poison = 0)
          ∧ (∀ w, t.sw.pipe.wr.head? = some w → hCount w.line.hdr = 0
              ∧ hRound w.line.hdr = (hRound (headerAt s x) + 1) % 2 ^ 16 ∧ w.line.hdr.getLsbD 36 = true)
          ∧ (∃ y, t.sw.gth.ro = [y] ∧ y.id = c.id ∧ y.region = x.region ∧ y.ctx = x.ctx ∧ y.t = x.t ∧ y.owner = x.reg.owner
              ∧ y.round = BitVec.ofNat 16 (hRound (headerAt s x)) ∧ y.gtime = c.gtime ∧ y.at_ = c.acc + 37 ∧ y.res = e.roRes
              ∧ y.planned = false ∧ y.lines.length = x.locs.length
              ∧ (x.t.mode = 2#2 → x.t.opt = false → ∀ k v z, k < x.t.n → k < 32 → x.t.expect ≠ 0 → elemOf x.t e.g k = some (v, z) →
                  bytesN (y.lines.getD 0 0) (4 * k) 4 = (bytesN (s.sw.arr.stored (x.locs.headD 0)).data (4 * k) 4
                    + (sextN (8 * elemSize x.t.infmt) v % 2 ^ 32).toNat) % 2 ^ 32)))) ∧
  ∀ (s : State) (e : RoEnt) (l : List RoEnt), s.awake = true → s.sw.domainDown = false → s.sw.gth.sigAt ≤ s.sw.fr.clk →
    s.sw.gth.ro = e :: l → e.planned = true → e.issuedAll = true → e.open_ = 0 → e.t.sync.getLsbD 14 = true →
    (∀ a r, s.sw.pipe.syn = a :: r → a.obj ≠ fldN e.t.sync 0 14) →
    ∃ t, exec .internalSignal s = .next t ∧ t.sw.gth = { s.sw.gth with ro := l, sigAt := s.sw.fr.clk + 1 }
      ∧ ObjectBecomes s.sw t.sw (fldN e.t.sync 0 14) (fired { s.sw.syncObj (fldN e.t.sync 0 14) with
          counter := (s.sw.syncObj (fldN e.t.sync 0 14)).counter + 1 })
      ∧ t.ao = s.ao ∧ { t.sw with syn := s.sw.syn, gth := s.sw.gth, pmc := s.sw.pmc, evt := s.sw.evt, trc := s.sw.trc } = s.sw

/-- NOTIFY_ENQUEUE: the lowest-numbered object with PEND takes a free entry of the 64, and its PEND clears (R281).
NOTIFY_SEND of the oldest notify: kind 1 leaves as an IO write of its 16-B payload and frees its entry; kinds 2 and 3
become a memory write or add of the slice's own, sent to a remote home as credits allow (R280, R281). -/
def Obligations.NotifiesAreQueuedAndSent : Prop :=
  (∀ (s : State) (m : Nat), s.awake = true → s.sw.domainDown = false → s.sw.syn.enqAt ≤ s.sw.fr.clk → s.sw.syn.nq.length < 64 →
     Sparse.wf SyncObj.zero s.sw.syn.obj → (s.sw.syncObj m).pend = true → (∀ k < m, (s.sw.syncObj k).pend = false) →
     ∃ t n, exec .notifyEnqueue s = .next t ∧ t.sw.syncObj m = { s.sw.syncObj m with pend := false }
       ∧ (∀ k, k ≠ m → t.sw.syncObj k = s.sw.syncObj k) ∧ t.sw.syn.nq = s.sw.syn.nq ++ [n]
       ∧ n.obj = m ∧ n.thr = (s.sw.syncObj m).thr ∧ n.sent = false
       ∧ t.ao = s.ao ∧ { t.sw with syn := s.sw.syn } = s.sw) ∧
  ((∀ (s : State) (n : Notify) (l : List Notify), s.awake = true → s.sw.domainDown = false → s.sw.syn.nq = n :: l →
     n.sent = false → (s.sw.syncObj n.obj).nkind = 1 → s.sw.port.free .io = true → s.sw.port.credOut.io ≠ 0 →
     s.sw.fastWaits = false →
     ∃ t f, exec .notifySend s = .next t ∧ t.sw.syn = { s.sw.syn with nq := l }
       ∧ t.sw.port = { s.sw.port with
           ioOut := some (ioFlit f), credOut := { s.sw.port.credOut with io := s.sw.port.credOut.io - 1 } }
       ∧ f.op = 0x03 ∧ f.addr = (s.sw.syncObj n.obj).naddr ∧ f.len = 15 ∧ f.src = s.params.sliceRid
       ∧ f.domain = (s.sw.syncObj n.obj).owner
       ∧ f.payload = BitVec.ofNat 512 (n.thr.toNat + n.obj * 2 ^ 64 + s.params.sliceIndex.toNat * 2 ^ 80)
       ∧ t.ao = s.ao
       ∧ { t.sw with syn := s.sw.syn, port := s.sw.port, pmc := s.sw.pmc, evt := s.sw.evt, trc := s.sw.trc } = s.sw) ∧
   ∀ (s : State) (n : Notify) (l : List Notify), s.awake = true → s.sw.domainDown = false → s.sw.syn.nq = n :: l →
     n.sent = false → ((s.sw.syncObj n.obj).nkind = 2 ∨ (s.sw.syncObj n.obj).nkind = 3) →
     s.sw.isHome s.params (laddrOf (s.sw.syncObj n.obj).naddr) = false → s.sw.sends = true → s.sw.datDue = false →
     s.sw.port.reqOut = none → s.sw.port.datOut = none → s.sw.port.credOut.req ≠ 0 → s.sw.port.credOut.dat ≠ 0 →
     ∃ t r d, exec .notifySend s = .next t ∧ t.sw.syn = { s.sw.syn with nq := { n with sent := true } :: l }
       ∧ t.sw.port.reqOut = some (reqFlit r) ∧ t.sw.port.datOut = some (datFlit d)
       ∧ r.op = (if (s.sw.syncObj n.obj).nkind = 3 then 0x80 else 0x63) ∧ r.addr = (s.sw.syncObj n.obj).naddr
       ∧ r.size = (if (s.sw.syncObj n.obj).nkind = 3 then 3 else 4) ∧ r.src = s.params.sliceRid ∧ r.priv = 3
       ∧ r.qos = (s.sw.syncObj n.obj).nclass ∧ r.domain = (s.sw.syncObj n.obj).owner ∧ d.txn = r.txn ∧ d.src = r.src
       ∧ t.sw.port.credOut.req = s.sw.port.credOut.req - 1 ∧ t.sw.port.credOut.dat = s.sw.port.credOut.dat - 1
       ∧ t.ao = s.ao ∧ t.sw.gth.ro = s.sw.gth.ro
       ∧ { t.sw with syn := s.sw.syn, port := s.sw.port, gth := s.sw.gth, pmc := s.sw.pmc, evt := s.sw.evt, trc := s.sw.trc } = s.sw)

/-! ## Mailbox commands: taking them and reporting (14, R325 to R338, R347 to R349) -/

/-- COMMAND_TAKE and CRC_REREAD of a POSTED channel whose buffer passes check 1: it runs when checks 2 to 8 pass and completes
with the status of the first that fails; a failed check 1 waits 2,500 clk and the third failure is TORN_COMMAND (R329, R330). While a
short command runs, a command is taken only where the two conflict, and check 6 then ends it with WRONG_STATE (R314, R334; log 101). -/
def Obligations.FirmwareTakesACommand : Prop :=
  ∀ (s : State) (n : BitVec 2), s.awake = true → s.sw.life.lehrUp = true → (s.sw.mbx.ch n).st = .posted →
    (∀ c : Instr, (c = .commandTake ∧ s.sw.mbx.next = some n ∧ (s.sw.mbx.busy = false ∨ s.sw.clashes n = true)
        ∨ c = .crcReread n ∧ s.sw.mbx.busy = false ∧ ∃ k, (s.sw.mbx.ch n).rereadAt = some k ∧ k ≤ s.sw.fr.clk) →
      (s.sw.mbx.ch n).bufOk = true →
      ∃ t, exec c s = .next t ∧ t.ao = s.ao ∧ (∀ m, m ≠ n → t.sw.mbx.ch m = s.sw.mbx.ch m)
        ∧ (∀ st, s.sw.checkBuf s.ao n (s.sw.mbx.ch n).cmd = some st →
            (t.sw.mbx.ch n).st = .done ∧ (t.sw.mbx.ch n).code = st ∧ (t.sw.mbx.ch n).run = none)
        ∧ (s.sw.checkBuf s.ao n (s.sw.mbx.ch n).cmd = none → bytesN (s.sw.mbx.ch n).cmd 0 2 = 0x0001 →
            (t.sw.mbx.ch n).st = .running ∧ (t.sw.mbx.ch n).run = some ⟨fld (s.sw.mbx.ch n).cmd 0 16,
              fld (s.sw.mbx.ch n).cmd 32 16, fld (s.sw.mbx.ch n).cmd 96 416, false⟩)
        ∧ (s.sw.checkBuf s.ao n (s.sw.mbx.ch n).cmd = none → (t.sw.mbx.ch n).st = .done ∨ (t.sw.mbx.ch n).st = .running
            ∧ (t.sw.mbx.ch n).run = some ⟨fld (s.sw.mbx.ch n).cmd 0 16, fld (s.sw.mbx.ch n).cmd 32 16,
              fld (s.sw.mbx.ch n).cmd 96 416, false⟩)
        ∧ { t.sw with mbx := s.sw.mbx, evt := s.sw.evt, pmc := s.sw.pmc, trc := s.sw.trc } = s.sw) ∧
    (s.sw.mbx.busy = true → s.sw.clashes n = false → s.sw.mbx.next = some n → exec .commandTake s = .next s) ∧
    ((∃ r, cmdRow (bytesN (s.sw.mbx.ch n).cmd 0 2) = some r ∧ s.sw.otherRuns n r.group = true
        ∧ byteN (s.sw.mbx.ch n).cmd 2 = r.len ∧ (r.ch0 = true → n = 0)) →
      fld (s.sw.mbx.ch n).cmd 32 16 = s.ao.hostEpoch.getD n.toNat 0 →
      s.sw.checkBuf s.ao n (s.sw.mbx.ch n).cmd = some (if s.sw.life.st = .fenced then 0x0B else 0x01)) ∧
    (s.sw.mbx.busy = false → s.sw.mbx.next = some n → (s.sw.mbx.ch n).bufOk = false →
      ∃ t, exec .commandTake s = .next t
        ∧ t.sw.mbx.ch n = { s.sw.mbx.ch n with rereads := 0, rereadAt := some (s.sw.fr.clk + 2500) }) ∧
    ∀ k, s.sw.mbx.busy = false → (s.sw.mbx.ch n).rereadAt = some k → k ≤ s.sw.fr.clk → (s.sw.mbx.ch n).bufOk = false →
      ∃ t, exec (.crcReread n) s = .next t
        ∧ ((s.sw.mbx.ch n).rereads < 2 → t.sw.mbx.ch n = { s.sw.mbx.ch n with
            rereads := (s.sw.mbx.ch n).rereads + 1, rereadAt := some (s.sw.fr.clk + 2500) })
        ∧ (2 ≤ (s.sw.mbx.ch n).rereads → (t.sw.mbx.ch n).st = .done ∧ (t.sw.mbx.ch n).code = 0x08)

/-- FW_LOAD_BEGIN, FW_LOAD_DATA, FW_LOAD_END, REPAIR_APPLY and SCRUB_CFG are accepted only on channel 0: on another channel a
buffer that passes checks 1 to 4 completes with DENIED. No other command, and no command of channel 0, does (R335). -/
def Obligations.Channel0Commands : Prop :=
  ∀ (s : State) (n : BitVec 2), s.awake = true → s.sw.life.lehrUp = true → s.sw.mbx.busy = false ∨ s.sw.clashes n = true →
    (s.sw.mbx.ch n).st = .posted → s.sw.mbx.next = some n → (s.sw.mbx.ch n).bufOk = true →
    ∃ t, exec .commandTake s = .next t
      ∧ (n ≠ 0 → bytesN (s.sw.mbx.ch n).cmd 0 2 ∈ [0x00F8, 0x00F9, 0x00FA, 0x0082, 0x0080] →
          fld (s.sw.mbx.ch n).cmd 32 16 = s.ao.hostEpoch.getD n.toNat 0 →
          (∃ r, cmdRow (bytesN (s.sw.mbx.ch n).cmd 0 2) = some r ∧ byteN (s.sw.mbx.ch n).cmd 2 = r.len) →
          (t.sw.mbx.ch n).st = .done ∧ (t.sw.mbx.ch n).code = 0x07)
      ∧ (n = 0 ∨ bytesN (s.sw.mbx.ch n).cmd 0 2 ∉ [0x00F8, 0x00F9, 0x00FA, 0x0082, 0x0080] →
          (t.sw.mbx.ch n).st = .done → (t.sw.mbx.ch n).code ≠ 0x07)

/-- A snapshot unit copies one counter block, and the twelfth completes the snapshot; a telemetry unit samples one set, and the fourth
moves the sample to the registers and marks the banks whose temperature has moved by CAL_STEP for calibration (R363, R402, R432,
R439). SLICE_INFO, FW_VERSION, TELEM_READ and REPAIR_STATUS complete with OK and report, changing nothing else; each payload is given
as (first byte, bytes, value) (R337, R347 to R349). The boot ROM version is a free value (log 27). -/
def Obligations.ReportsOfTheSlice : Prop :=
  (∀ (s : State), BackgroundSlot s → s.sw.pmc.units < 12 →
    ∃ t, exec .slotDecide s = .next t ∧ ClkEnds s t s.sw
      ∧ t.sw.pmc.units = s.sw.pmc.units + 1 ∧ t.sw.pmc.cap = s.sw.pmc.cap
      ∧ (Sparse.wf 0 s.sw.pmc.snap → ∀ k, sget 0 t.sw.pmc.snap k =
          if k / 8 = s.sw.pmc.units then sget 0 s.sw.pmc.cap k else sget 0 s.sw.pmc.snap k)
      ∧ (s.sw.pmc.units < 11 → t.sw.pmc.gen = s.sw.pmc.gen ∧ t.sw.pmc.gtime = s.sw.pmc.gtime)
      ∧ (s.sw.pmc.units = 11 → t.sw.pmc.gen = s.sw.pmc.gen + 1 ∧ t.sw.pmc.gtime = s.sw.pmc.capGtime ∧ (t.sw.src 22).pend = true)) ∧
  (∀ (s : State), BackgroundSlot s → s.sw.pmc.units = 12 → s.sw.tel.units < 4 →
    ∃ t, exec .slotDecide s = .next t ∧ ClkEnds s t { s.sw with tel := t.sw.tel, rep := t.sw.rep }
      ∧ t.sw.tel.units = s.sw.tel.units + 1 ∧ t.sw.tel.live = s.sw.tel.live
      ∧ (s.sw.tel.units < 3 → t.sw.tel.regs = s.sw.tel.regs ∧ t.sw.tel.gen = s.sw.tel.gen ∧ t.sw.rep = s.sw.rep)
      ∧ (s.sw.tel.units = 2 → t.sw.tel.next = { s.sw.tel.next with
          corr := s.sw.tel.live.corr, uncorr := s.sw.tel.live.uncorr, metaErr := s.sw.tel.live.metaErr
          parity := s.sw.tel.live.parity })
      ∧ (s.sw.tel.units = 3 → t.sw.tel.regs = { s.sw.tel.next with
            lap := s.sw.tel.live.lap, lines := s.sw.tel.live.lines, cals := s.sw.tel.live.cals, calPend := s.sw.rep.calPend }
          ∧ t.sw.tel.gen = s.sw.tel.gen + 1 ∧ t.sw.tel.gtime = s.sw.tel.gtimeNext ∧ (t.sw.src 24).pend = true
          ∧ ∀ b < 64, t.sw.rep.calPend.getLsbD b = (s.sw.rep.calPend.getLsbD b
              || decide (8 * s.sw.rep.calStep ≤ ((s.sw.tel.next.temp.getD (2 * (b / 16) + (b % 16) / 8) 0).toInt
                  - (sget 0 s.sw.rep.calTemp b).toInt).natAbs)))) ∧
  (∀ (s : State) (n : BitVec 2) (c : RunCmd), CommandReady s n 0x0001 c →
    ∃ t r, exec (.sliceInfo n) s = .next t ∧ Completed s t n c r s.sw ∧ r.status = 0 ∧ r.len = 44
      ∧ (s.sw.life.st = .boot ∨ s.sw.life.st = .safe → r.data = payload
          [(0, 1, s.params.sliceIndex.toNat), (1, 1, s.sw.life.st.code), (14, 2, s.params.sliceRid.toNat)])
      ∧ (s.sw.life.st ≠ .boot → s.sw.life.st ≠ .safe → s.sw.walk = none → r.data = payload
          [(0, 1, s.params.sliceIndex.toNat), (1, 1, s.sw.life.st.code), (14, 2, s.params.sliceRid.toNat),
            (2, 2, s.sw.fr.len), (4, 2, s.sw.life.agents), (6, 1, s.sw.life.snpExp), (7, 1, infoFlags s.ao s.sw),
            (8, 2, s.sw.map.k), (10, 2, s.sw.cache.waySet.toNat), (12, 2, s.sw.heldWays.toNat),
            (16, 8, regionBits fun r => (s.sw.region r).any fun g => g.ph != .binding),
            (24, 8, regionBits fun r => (s.sw.template r).isSome)])) ∧
  (∀ (s : State) (n : BitVec 2) (c : RunCmd), CommandReady s n 0x00F0 c →
    ∃ t r, exec (.fwVersion n) s = .next t ∧ Completed s t n c r s.sw ∧ r.status = 0 ∧ r.len = 20
      ∧ (s.sw.life.st = .boot ∨ s.sw.life.st = .safe → r.data = payload [(16, 2, Config.bootRomVersion.toNat)])) ∧
  (∀ (s : State) (n : BitVec 2) (c : RunCmd), CommandReady s n 0x0090 c →
    ∃ t r, exec (.telemRead n) s = .next t ∧ Completed s t n c r s.sw ∧ r.status = 0 ∧ r.len = 28
      ∧ (byteN c.pay 0 = 2 → r.data = payload [(0, 8, s.sw.tel.gtime.toNat), (8, 4, s.sw.tel.regs.corr.toNat),
          (12, 4, s.sw.tel.regs.uncorr.toNat), (16, 4, s.sw.tel.regs.metaErr.toNat), (20, 4, s.sw.tel.regs.parity.toNat)])
      ∧ (byteN c.pay 0 = 3 → r.data = payload [(0, 8, s.sw.tel.gtime.toNat), (8, 4, s.sw.tel.regs.lap.toNat),
          (12, 4, s.sw.tel.regs.lines.toNat), (16, 4, s.sw.tel.regs.cals.toNat), (20, 8, s.sw.tel.regs.calPend.toNat)])) ∧
  ∀ (s : State) (n : BitVec 2) (c : RunCmd), CommandReady s n 0x0081 c →
    ∃ t r, exec (.repairStatus n) s = .next t ∧ Completed s t n c r s.sw ∧ r.status = 0 ∧ r.len = 36
      ∧ (s.sw.rep.log = [] → s.sw.rep.lastRemoved = none → s.sw.rep.retired = [] → s.sw.rep.map = [] → s.sw.rep.bad = [] →
          r.data = payload [(0, 2, 4096), (2, 2, 4096), (4, 2, 4096), (6, 2, 4096), (8, 2, 2048), (10, 2, 2048), (12, 2, 2048),
            (14, 2, 2048), (20, 4, s.sw.rep.applied.toNat)])

/-! ## Lifecycle commands (14, R339 to R343; 18, R424; 01, R21) -/

/-- SLICE_START completes with WRONG_STATE while any tier is not ON or while the warm sweep runs, in addition to R339. -/
def Obligations.StartNeedsEveryTier : Prop :=
  ∀ (s : State) (n : BitVec 2) (c : RunCmd), CommandReady s n 0x0002 c →
    (s.sw.life.st = .config → 1 ≤ bytesN c.pay 0 2 ∧ bytesN c.pay 0 2 ≤ 1024 ∧ 12 ≤ byteN c.pay 2 ∧ byteN c.pay 2 ≤ 24) →
    (s.sw.life.st ≠ .config → bytesN c.pay 0 2 = s.sw.life.agents ∧ byteN c.pay 2 = s.sw.life.snpExp) →
    ((∃ x ∈ s.ao.tiers, x.st ≠ .on) ∨ s.sw.life.sweep ≠ none) →
    ∃ t, exec (.sliceStart n) s = .next t ∧ Completed s t n c ⟨0x01, 0, 0⟩ s.sw

/-- SLICE_START with parameters in range, a committed map, every tier ON and no sweep enters RUNNING; from CONFIG the initial
credits return, one for each clk and channel; in other cases it completes with BAD_PARAM or WRONG_STATE (R36, R339). -/
def Obligations.SliceStartRuns : Prop :=
  ∀ (s : State) (n : BitVec 2) (c : RunCmd), CommandReady s n 0x0002 c → s.sw.map.committed = true →
    s.sw.life.sweep = none → (∀ x ∈ s.ao.tiers, x.st = .on) →
    (s.sw.life.st = .config → 1 ≤ bytesN c.pay 0 2 → bytesN c.pay 0 2 ≤ 1024 → 12 ≤ byteN c.pay 2 → byteN c.pay 2 ≤ 24 →
      s.sw.port.crdGiven = false →
      ∃ t, exec (.sliceStart n) s = .next t ∧ Completed s t n c ⟨0, 0, 0⟩ { s.sw with
        life := { s.sw.life with
          st := .running, agents := bytesN c.pay 0 2, snpExp := byteN c.pay 2, watch := s.sw.fr.frameNo }
        fr := { s.sw.fr with tickFrom := some s.sw.fr.clk }
        port := { s.sw.port with
          crdGiven := true
          crdDue := s.sw.port.crdDue
            ++ (List.range 16).map (fun i => (Lane.rsp, s.sw.fr.clk + 1 + i))
            ++ (List.range 32).map (fun i => (Lane.dat, s.sw.fr.clk + 1 + i))
            ++ (List.range 8).map (fun i => (Lane.gth, s.sw.fr.clk + 1 + i))
            ++ (List.range 16).map (fun i => (Lane.req, s.sw.fr.clk + 1 + i)) } }) ∧
    (s.sw.life.st = .quiesced → bytesN c.pay 0 2 = s.sw.life.agents → byteN c.pay 2 = s.sw.life.snpExp →
      s.sw.port.crdGiven = true →
      ∃ t, exec (.sliceStart n) s = .next t ∧ Completed s t n c ⟨0, 0, 0⟩ { s.sw with
        life := { s.sw.life with st := .running }, fr := { s.sw.fr with tickFrom := some s.sw.fr.clk } }) ∧
    (s.sw.life.st = .config → (bytesN c.pay 0 2 < 1 ∨ 1024 < bytesN c.pay 0 2 ∨ byteN c.pay 2 < 12 ∨ 24 < byteN c.pay 2) →
      ∃ t, exec (.sliceStart n) s = .next t ∧ Completed s t n c ⟨0x02, 0, 0⟩ s.sw)

/-- SLICE_QUIESCE enters QUIESCING and runs on; QUIESCE_DONE, once every queue, table and buffer is empty with no walk running
and no PEND, completes it with OK in QUIESCED, and a walk that was held starts (R340). -/
def Obligations.QuiesceCompletesWhenEmpty : Prop :=
  (∀ (s : State) (n : BitVec 2) (c : RunCmd), CommandReady s n 0x0003 c →
    ∃ t, exec (.sliceQuiesce n) s = .next t
      ∧ RunsOn s t n c { s.sw with life := { s.sw.life with st := .quiescing, quiescing := some n } }) ∧
  ∀ (s : State) (n : BitVec 2) (c : RunCmd), s.awake = true → s.sw.life.quiescing = some n → (s.sw.mbx.ch n).run = some c →
    s.sw.q.req = [] → s.sw.q.io = [] → s.sw.q.gth = [] → s.sw.home.txns = [] → s.sw.gth.ro = [] → s.sw.syn.nq = [] →
    s.sw.cache.ev = [] → (∀ w, s.sw.walk = some w → w.held = true) →
    (∀ e ∈ s.sw.syn.obj, e.2.pend = false) →
    ∃ t, exec .quiesceDone s = .next t ∧ Completed s t n c ⟨0, 0, 0⟩
      { s.sw with life := { s.sw.life with st := .quiesced, quiescing := none }
                  walk := s.sw.walk.map fun w => { w with held := false } }

/-- SLICE_FENCE with its key answers OK and fences: the queues, snoops and transactions are abandoned, IO stays in service, and
the stored lines stay; SLICE_RESET answers OK and asks for a reset 2 µs later (R21, R343). A wrong key is BAD_PARAM. -/
def Obligations.FenceAndResetCommands : Prop :=
  (∀ (s : State) (n : BitVec 2) (c : RunCmd), CommandReady s n 0x0004 c → bytesN c.pay 0 2 = 0xF3A5 →
    ∃ t, exec (.sliceFence n) s = .next t ∧ t.ao = s.ao ∧ t.sw.life.st = .fenced
      ∧ (t.sw.mbx.ch n).st = .done ∧ (t.sw.mbx.ch n).code = 0 ∧ t.sw.port.isolate = .fence ∧ t.sw.home.txns = []
      ∧ t.sw.q.req = [] ∧ t.sw.q.gth = [] ∧ t.sw.q.io = s.sw.q.io ∧ t.sw.pipe.wr = []
      ∧ (∀ r ∈ t.sw.pipe.rsp, ∃ m, r.body = .io m) ∧ t.sw.syn.obj = s.sw.syn.obj ∧ t.sw.pin = s.sw.pin
      ∧ t.sw.map = s.sw.map ∧ t.sw.fr = s.sw.fr) ∧
  (∀ (s : State) (n : BitVec 2) (c : RunCmd), CommandReady s n 0x0004 c → bytesN c.pay 0 2 ≠ 0xF3A5 →
    ∃ t, exec (.sliceFence n) s = .next t ∧ Completed s t n c ⟨0x02, 0, 0⟩ s.sw) ∧
  (∀ (s : State) (n : BitVec 2) (c : RunCmd), CommandReady s n 0x0005 c → bytesN c.pay 2 2 = 0x5A3C →
    (byteN c.pay 0 = 2 → byteN c.pay 1 < 6 ∨ s.sw.life.st = .quiesced) →
    ∃ t, exec (.sliceReset n) s = .next t
      ∧ t.ao = { s.ao with swReset := s.ao.swReset
          ++ [⟨5, fld c.pay 0 2, fld c.pay 8 3, s.ao.refClk + 2 * s.params.refMHz⟩] }
      ∧ Completed s { t with ao := s.ao } n c ⟨0, 0, 0⟩ s.sw) ∧
  ∀ (s : State) (n : BitVec 2) (c : RunCmd), CommandReady s n 0x0005 c → bytesN c.pay 2 2 ≠ 0x5A3C →
    ∃ t, exec (.sliceReset n) s = .next t ∧ Completed s t n c ⟨0x02, 0, 0⟩ s.sw

/-! ## Configuration commands (14, R341, R342; 04, R86, R102, R103; 13, R313; 09, R212; 11, R279; 06, R156; 17, R401) -/

/-- INTERLEAVE_SET writes and marks its staging entries; with COMMIT, when all 1,024 are marked and one names the slice, the
staging map becomes the active one and k is the number of its line groups; a COMMIT that fails changes nothing, and a run of entries
beyond 1,024 fails with MARKED and K reported (R15, R66, R341, R444). -/
def Obligations.InterleaveSetStagesAndCommits : Prop :=
  ∀ (s : State) (n : BitVec 2) (c : RunCmd), CommandReady s n 0x0010 c →
    (1024 < bytesN c.pay 0 2 + byteN c.pay 2 → ∃ t, exec (.interleaveSet n) s = .next t
      ∧ Completed s t n c ⟨0x02, 4, payload [(0, 2, s.sw.map.marks.length),
          (2, 2, if s.sw.map.committed = true then s.sw.map.k else 0)]⟩ s.sw) ∧
    (byteN c.pay 3 = 0 → bytesN c.pay 0 2 + byteN c.pay 2 ≤ 1024 → ∃ t m r, exec (.interleaveSet n) s = .next t ∧ Completed s t n c r { s.sw with map := m }
      ∧ r.status = 0 ∧ m.committed = s.sw.map.committed ∧ m.active = s.sw.map.active ∧ m.mine = s.sw.map.mine
      ∧ (∀ i < byteN c.pay 2, sget 0 m.staging (bytesN c.pay 0 2 + i) = BitVec.ofNat 7 (byteN c.pay (4 + i)))
      ∧ (∀ g, Sparse.wf 0 s.sw.map.staging → (g < bytesN c.pay 0 2 ∨ bytesN c.pay 0 2 + byteN c.pay 2 ≤ g) →
          sget 0 m.staging g = sget 0 s.sw.map.staging g)
      ∧ (∀ g, g ∈ m.marks ↔ g ∈ s.sw.map.marks ∨ (bytesN c.pay 0 2 ≤ g ∧ g < bytesN c.pay 0 2 + byteN c.pay 2))) ∧
    (byteN c.pay 3 = 1 → byteN c.pay 2 = 0 → bytesN c.pay 0 2 ≤ 1024 → s.sw.map.marks.length = 1024 →
      (∃ g < 1024, sget 0 s.sw.map.staging g = s.params.sliceIndex) →
      ∃ t m r, exec (.interleaveSet n) s = .next t ∧ Completed s t n c r { s.sw with map := m } ∧ r.status = 0
        ∧ m.committed = true ∧ m.active = s.sw.map.staging ∧ m.staging = s.sw.map.staging ∧ m.marks = s.sw.map.marks
        ∧ (∀ g, g ∈ m.mine ↔ g < 1024 ∧ sget 0 s.sw.map.staging g = s.params.sliceIndex)
        ∧ m.mine.Pairwise (· < ·) ∧ m.k = m.mine.length) ∧
    (byteN c.pay 3 = 1 → byteN c.pay 2 = 0 → s.sw.map.marks.length ≠ 1024 →
      ∃ t r, exec (.interleaveSet n) s = .next t ∧ Completed s t n c r s.sw ∧ r.status = 0x02)

/-- STAKE_LOAD writes a run of well-formed entries into the copy that is not active; STAKE_SWITCH arms a switch to it; FRAME_SET
gives the length from the next boundary (R86, R92, R101 to R103, R313, R315). -/
def Obligations.StakeAndFrameCommands : Prop :=
  (∀ (s : State) (n : BitVec 2) (c : RunCmd), CommandReady s n 0x0030 c → copyOf (byteN c.pay 0) ≠ s.sw.fr.active →
    bytesN c.pay 2 2 + bytesN c.pay 4 2 ≤ 8192 → (∀ w, s.sw.fr.switch = some w → w.dest ≠ copyOf (byteN c.pay 0)) →
    (∀ i < bytesN c.pay 4 2, entryOk (fld c.pay (64 + 32 * (if byteN c.pay 1 = 1 then 0 else i)) 32) = true) →
    ∃ t x, exec (.stakeLoad n) s = .next t
      ∧ Completed s t n c ⟨0, 4, payload [(0, 2, bytesN c.pay 4 2)]⟩ { s.sw with fr := x }
      ∧ (∀ i < bytesN c.pay 4 2, sget 0 (x.copy (copyOf (byteN c.pay 0))) (bytesN c.pay 2 2 + i)
          = fld c.pay (64 + 32 * (if byteN c.pay 1 = 1 then 0 else i)) 32)
      ∧ (∀ i, Sparse.wf 0 (s.sw.fr.copy (copyOf (byteN c.pay 0))) →
          (i < bytesN c.pay 2 2 ∨ bytesN c.pay 2 2 + bytesN c.pay 4 2 ≤ i) →
          sget 0 (x.copy (copyOf (byteN c.pay 0))) i = sget 0 (s.sw.fr.copy (copyOf (byteN c.pay 0))) i)
      ∧ x.copy (copyOf (byteN c.pay 0)).other = s.sw.fr.copy (copyOf (byteN c.pay 0)).other
      ∧ { x with copyA := s.sw.fr.copyA, copyB := s.sw.fr.copyB } = s.sw.fr) ∧
  (∀ (s : State) (n : BitVec 2) (c : RunCmd), CommandReady s n 0x0030 c →
    (8192 < bytesN c.pay 2 2 + bytesN c.pay 4 2 →
      ∃ t, exec (.stakeLoad n) s = .next t ∧ Completed s t n c ⟨0x02, 4, 0⟩ s.sw) ∧
    (bytesN c.pay 2 2 + bytesN c.pay 4 2 ≤ 8192 → copyOf (byteN c.pay 0) = s.sw.fr.active →
      ∃ t, exec (.stakeLoad n) s = .next t ∧ Completed s t n c ⟨0x01, 4, 0⟩ s.sw)) ∧
  (∀ (s : State) (n : BitVec 2) (c : RunCmd), CommandReady s n 0x0031 c → s.sw.fr.switch = none →
    copyOf (byteN c.pay 0) ≠ s.sw.fr.active → 16 ≤ bgCount (s.sw.fr.copy (copyOf (byteN c.pay 0))) s.sw.fr.len →
    lockedCount (s.sw.fr.copy (copyOf (byteN c.pay 0))) s.sw.fr.len + s.sw.qos.admitted.sumSlots ≤ 9 * s.sw.fr.len / 10 →
    ∃ t r, exec (.stakeSwitch n) s = .next t ∧ r.status = 0 ∧ Completed s t n c r { s.sw with
      fr := { s.sw.fr with switch := some ⟨copyOf (byteN c.pay 0), fld c.pay 32 64, 0⟩ } }) ∧
  ∀ (s : State) (n : BitVec 2) (c : RunCmd), CommandReady s n 0x0032 c →
    (s.sw.life.st = .config ∨ s.sw.q.req = [] ∧ s.sw.q.reqReg = [] ∧ s.sw.q.io = [] ∧ s.sw.q.gth = []) →
    (s.sw.fr.everSwitched = false ∨ 16 ≤ bgCount (s.sw.fr.copy s.sw.fr.active) (bytesN c.pay 0 2)) →
    s.sw.fr.lk (bytesN c.pay 0 2) + s.sw.qos.admitted.sumSlots ≤ 9 * bytesN c.pay 0 2 / 10 →
    s.sw.qos.admitted.sumMiss ≤ capLines s.sw.mp.level (bytesN c.pay 0 2) →
    ∃ t, exec (.frameSet n) s = .next t
      ∧ Completed s t n c ⟨0, 0, 0⟩ { s.sw with fr := { s.sw.fr with lenNext := some (bytesN c.pay 0 2) } }

/-- QOS_ADMIT admits a class whose parameters pass the slots, memory and queue checks, and otherwise completes with
OVER_COMMIT; QOS_RELEASE restores a class's defaults; both take effect at the next boundary (R300, R313, R314). -/
def Obligations.QosAdmitAndRelease : Prop :=
  (∀ (s : State) (n : BitVec 2) (c : RunCmd), CommandReady s n 0x0040 c →
    s.sw.fr.lk s.sw.fr.len + (s.sw.qos.withClass (byteN c.pay 0) (admitPar c.pay)).admitted.sumSlots ≤ 9 * s.sw.fr.len / 10 →
    (s.sw.qos.withClass (byteN c.pay 0) (admitPar c.pay)).admitted.sumMiss ≤ capLines s.sw.mp.level s.sw.fr.len →
    (s.sw.qos.withClass (byteN c.pay 0) (admitPar c.pay)).admitted.sumRsv ≤ 64 →
    ∃ t r, exec (.qosAdmit n) s = .next t ∧ r.status = 0 ∧ Completed s t n c r { s.sw with qos := { s.sw.qos with
      next := s.sw.qos.next ++ [(byteN c.pay 0, ⟨bytesN c.pay 2 2, bytesN c.pay 4 2, byteN c.pay 6, byteN c.pay 7,
        byteN c.pay 1 == 1⟩)] } }) ∧
  (∀ (s : State) (n : BitVec 2) (c : RunCmd), CommandReady s n 0x0040 c →
    64 < (s.sw.qos.withClass (byteN c.pay 0) (admitPar c.pay)).admitted.sumRsv →
    s.sw.qos.admitted.sumRsv < (s.sw.qos.withClass (byteN c.pay 0) (admitPar c.pay)).admitted.sumRsv →
    ∃ t, exec (.qosAdmit n) s = .next t ∧ Completed s t n c ⟨0x04, 4, 0⟩ s.sw) ∧
  ∀ (s : State) (n : BitVec 2) (c : RunCmd), CommandReady s n 0x0041 c →
    ∃ t r, exec (.qosRelease n) s = .next t ∧ r.status = 0 ∧ Completed s t n c r { s.sw with qos := { s.sw.qos with
      next := s.sw.qos.next ++ [(byteN c.pay 0, ⟨0, 0, 0, 128, false⟩)] } }

/-- GATHER_REGION of a bound TYPE 2 region with no armed context accepts a template of R211 and waits; TEMPLATE_APPLY gives it
effect in a clk in which no contribution to the region is between ACC and HDR (R211, R212). -/
def Obligations.GatherTemplateTakesEffect : Prop :=
  (∀ (s : State) (n : BitVec 2) (c : RunCmd), CommandReady s n 0x0050 c → s.sw.boundGather (byteN c.pay 0) = true →
    sget 0 s.sw.gth.armed (byteN c.pay 0) = 0 → (templateOf c.pay).ok = true →
    ∃ t, exec (.gatherRegion n) s = .next t ∧ RunsOn s t n c { s.sw with gth := { s.sw.gth with
      tmplNext := s.sw.gth.tmplNext ++ [(n, byteN c.pay 0, templateOf c.pay)] } }) ∧
  (∀ (s : State) (n : BitVec 2) (c : RunCmd), CommandReady s n 0x0050 c → s.sw.boundGather (byteN c.pay 0) = true →
    sget 0 s.sw.gth.armed (byteN c.pay 0) = 0 → (templateOf c.pay).ok = false →
    ∃ t, exec (.gatherRegion n) s = .next t ∧ Completed s t n c ⟨0x02, 4, 0⟩ s.sw) ∧
  ∀ (s : State) (n : BitVec 2) (c : RunCmd) (r : Nat) (x : Template) (l : List (BitVec 2 × Nat × Template)), s.awake = true →
    s.sw.gth.tmplNext = (n, r, x) :: l → (s.sw.mbx.ch n).run = some c → s.sw.contribInFlight r = false →
    s.sw.boundGather r = true →
    ∃ t y rep, exec .templateApply s = .next t ∧ rep.status = 0
      ∧ Completed s t n c rep { s.sw with gth := { s.sw.gth with tmpl := y, tmplNext := l } }
      ∧ sget x y r = x ∧ (∀ k, k ≠ r → s.sw.gth.tmpl.Pairwise (fun a b => a.1 < b.1) → sget x y k = sget x s.sw.gth.tmpl k)

/-- APERTURE_SET stops aperture acceptance and runs on; APERTURE_APPLY, once the accepted accesses have responded, applies
TARGET and SIZE (R154, R156). SYNC_CONFIG sets OWNER and the notify parameters of a range and keeps COUNTER, THR and ARMED
(R279). SCRUB_CFG sets the enables, CAL_STEP and MAX_UNITS (R401). A calibration unit reads one subarray of the lowest pending bank,
and the 32nd ends its calibration (R402); a scrub unit of a store without errors counts its line and reads one location (R400). -/
def Obligations.ApertureSyncAndScrubCommands : Prop :=
  (∀ (s : State) (b : Nat), BackgroundSlot s → s.sw.pmc.units = 12 → s.sw.tel.units = 4 → s.sw.walk = none →
    s.sw.arrayUp s.ao = true → s.sw.rep.calEn = true → s.sw.rep.calPend.getLsbD b = true →
    s.sw.rep.maxUnits = 0 ∨ s.sw.rep.unitsFrame < s.sw.rep.maxUnits →
    s.sw.rep.calBank = some b ∨ s.sw.rep.calBank = none ∧ (∀ a < b, s.sw.rep.calPend.getLsbD a = false) →
    ∃ t a, exec .slotDecide s = .next t ∧ ClkEnds s t { s.sw with rep := t.sw.rep, tel := t.sw.tel } ∧ t.sw.pipe.acc = [a]
      ∧ a.pair = (b / 16) * 8 + (b % 16) / 2 ∧ a.rank = 2 ∧ a.write = false
      ∧ t.sw.rep.unitsFrame = s.sw.rep.unitsFrame + 1
      ∧ (s.sw.rep.calUnits < 31 → t.sw.rep.calBank = some b ∧ t.sw.rep.calUnits = s.sw.rep.calUnits + 1
          ∧ t.sw.rep.calPend = s.sw.rep.calPend ∧ t.sw.tel = s.sw.tel)
      ∧ (s.sw.rep.calUnits = 31 → t.sw.rep.calBank = none ∧ t.sw.rep.calUnits = 0
          ∧ (∀ a, t.sw.rep.calPend.getLsbD a = (s.sw.rep.calPend.getLsbD a && decide (a ≠ b)))
          ∧ sget 0 t.sw.rep.calTemp b = s.sw.tel.regs.temp.getD (2 * (b / 16) + (b % 16) / 8) 0
          ∧ t.sw.tel.live.cals = s.sw.tel.live.cals + 1)) ∧
  (∀ (s : State), BackgroundSlot s → s.sw.pmc.units = 12 → s.sw.tel.units = 4 → s.sw.walk = none → s.sw.rep.calWork = false →
    s.sw.arr.errs = [] → s.sw.arr.lost = [] → tRetired (s.sw.tag (locOf (s.sw.rep.unit % 65536) (s.sw.rep.unit / 65536))) = false →
    s.sw.rep.unit < 1048576 →
    ∃ t a, exec .slotDecide s = .next t ∧ ClkEnds s t { s.sw with rep := t.sw.rep, tel := t.sw.tel } ∧ t.sw.pipe.acc = [a]
      ∧ a.pair = s.sw.rep.unit % 32 ∧ a.rank = 2 ∧ a.write = false
      ∧ t.sw.rep.unitsFrame = s.sw.rep.unitsFrame + 1 ∧ t.sw.tel.live.lines = BitVec.ofNat 32 (s.sw.rep.unit + 1)
      ∧ (s.sw.rep.unit < 1048575 → t.sw.rep.unit = s.sw.rep.unit + 1 ∧ t.sw.rep.lapDone = s.sw.rep.lapDone)
      ∧ (s.sw.rep.unit = 1048575 → t.sw.rep.unit = 0 ∧ t.sw.rep.lapDone = true
          ∧ t.sw.rep.lastLap = BitVec.ofNat 32 (s.sw.fr.frameNo + 1 - s.sw.rep.lapFrom))) ∧
  (∀ (s : State) (n : BitVec 2) (c : RunCmd), CommandReady s n 0x0023 c →
    ∃ t, exec (.apertureSet n) s = .next t ∧ RunsOn s t n c { s.sw with pin := { s.sw.pin with
      aptNext := s.sw.pin.aptNext ++ [(n, fld c.pay 20 32, fld c.pay 64 7)] } }) ∧
  (∀ (s : State) (n : BitVec 2) (c : RunCmd) (x : BitVec 32) (z : BitVec 7) (l : List (BitVec 2 × BitVec 32 × BitVec 7)),
    s.awake = true → s.sw.pin.aptNext = (n, x, z) :: l → s.sw.pin.aptOpen = [] → (s.sw.mbx.ch n).run = some c →
    ∃ t, exec .apertureApply s = .next t ∧ Completed s t n c ⟨0, 0, 0⟩ { s.sw with pin := { s.sw.pin with
      aptTarget := x, aptSize := z, aptNext := l } }) ∧
  (∀ (s : State) (n : BitVec 2) (c : RunCmd), CommandReady s n 0x0060 c → checkSync s.params s.ao s.sw c.pay = none →
    ∃ t x, exec (.syncConfig n) s = .next t
      ∧ Completed s t n c ⟨0, 0, 0⟩ { s.sw with syn := { s.sw.syn with obj := x } }
      ∧ (Sparse.wf SyncObj.zero s.sw.syn.obj →
          (∀ j < bytesN c.pay 2 2, sget SyncObj.zero x (bytesN c.pay 0 2 + j)
            = { s.sw.syncObj (bytesN c.pay 0 2 + j) with
                owner := fld c.pay 32 8, nkind := fld c.pay 40 2, nclass := fld c.pay 48 6
                naddr := BitVec.ofNat 52 (bytesN c.pay 8 8 + j * bytesN c.pay 16 4) })
          ∧ ∀ m, (m < bytesN c.pay 0 2 ∨ bytesN c.pay 0 2 + bytesN c.pay 2 2 ≤ m) →
              sget SyncObj.zero x m = s.sw.syncObj m)) ∧
  ∀ (s : State) (n : BitVec 2) (c : RunCmd), CommandReady s n 0x0080 c →
    ∃ t r x, exec (.scrubCfg n) s = .next t ∧ r.status = 0 ∧ Completed s t n c r { s.sw with rep := x }
      ∧ x.scrubEn = c.pay.getLsbD 0 ∧ x.calEn = c.pay.getLsbD 1 ∧ x.calStep = byteN c.pay 1 ∧ x.maxUnits = bytesN c.pay 2 2
      ∧ x.unit = (if x.scrubEn = true ∧ s.sw.rep.scrubEn = false then 0 else s.sw.rep.unit)
      ∧ { x with scrubEn := s.sw.rep.scrubEn, calEn := s.sw.rep.calEn, calStep := s.sw.rep.calStep
                 maxUnits := s.sw.rep.maxUnits, unit := s.sw.rep.unit } = s.sw.rep

/-- FW_LOAD_BEGIN discards any load; FW_LOAD_DATA writes 48 bytes within LENGTH; FW_LOAD_END starts the checks, which
FIRMWARE_START ends: an image with missing bytes is WRONG_STATE, one that fails a header check BAD_IMAGE in SAFE, one that
fails its hash or signature (whose verification is a free value) AUTH_FAIL in SAFE, and an image that passes every check runs in CONFIG
with the watchdog armed, a walk that a reset held going on and the LEHR banks enabled (the last is the model's choice: log 102); a
slice that has fenced stays FENCED and answers so (R23, R320, R322, R323, R336, R407, R412). -/
def Obligations.FirmwareLoadAndStart : Prop :=
  (∀ (s : State) (n : BitVec 2) (c : RunCmd), CommandReady s n 0x00F8 c →
    ∃ t, exec (.fwLoadBegin n) s = .next t ∧ Completed s t n c ⟨0, 0, 0⟩ { s.sw with life := { s.sw.life with
      fw := { Fw.reset with length := some (bytesN c.pay 0 4) } } }) ∧
  (∀ (s : State) (n : BitVec 2) (c : RunCmd) (len : Nat), CommandReady s n 0x00F9 c → s.sw.life.fw.length = some len →
    Memory.wf s.sw.life.fw.image →
    ∃ t f, exec (.fwLoadData n) s = .next t
      ∧ Completed s t n c ⟨0, 0, 0⟩ { s.sw with life := { s.sw.life with fw := f } }
      ∧ (∀ i < 48, bytesN c.pay 0 4 + i < len → Memory.byte f.image (bytesN c.pay 0 4 + i) = BitVec.ofNat 8 (byteN c.pay (4 + i)))
      ∧ (∀ a, (a < bytesN c.pay 0 4 ∨ bytesN c.pay 0 4 + 48 ≤ a ∨ len ≤ a) →
          Memory.byte f.image a = Memory.byte s.sw.life.fw.image a) ∧ { f with image := s.sw.life.fw.image, words := s.sw.life.fw.words } = s.sw.life.fw) ∧
  (∀ (s : State) (n : BitVec 2) (c : RunCmd), CommandReady s n 0x00FA c →
    ∃ t, exec (.fwLoadEnd n) s = .next t ∧ RunsOn s t n c { s.sw with life := { s.sw.life with
      fw := { s.sw.life.fw with checking := true } } }) ∧
  ∀ (s : State) (c : RunCmd), s.awake = true → s.sw.life.lehrUp = true → s.sw.life.fw.checking = true →
    (s.sw.mbx.ch 0).run = some c →
    (s.sw.life.st = .fenced → ∃ t, exec .firmwareStart s = .next t ∧ Completed s t 0 c ⟨0x0B, 0, 0⟩
      { s.sw with life := { s.sw.life with fw := { s.sw.life.fw with checking := false, length := none, words := [] } } }) ∧
    (s.sw.life.st ≠ .fenced → s.sw.life.fw.complete = false → ∃ t, exec .firmwareStart s = .next t ∧ Completed s t 0 c ⟨0x01, 0, 0⟩
      { s.sw with life := { s.sw.life with fw := { s.sw.life.fw with checking := false, length := none, words := [] } } }) ∧
    (s.sw.life.st ≠ .fenced → s.sw.life.fw.complete = true → s.sw.life.fw.headerOk = false → ∃ t, exec .firmwareStart s = .next t
      ∧ Completed s t 0 c ⟨0x0D, 0, 0⟩ { s.sw with life := { s.sw.life with st := .safe, safeCause := 1, fw := Fw.reset } }) ∧
    (s.sw.life.st ≠ .fenced → s.sw.life.fw.complete = true → s.sw.life.fw.headerOk = true → s.sw.life.fw.authentic = false →
      ∃ t, exec .firmwareStart s = .next t
        ∧ Completed s t 0 c ⟨0x0E, 0, 0⟩ { s.sw with life := { s.sw.life with st := .safe, safeCause := 1, fw := Fw.reset } }) ∧
    (s.sw.life.st ≠ .fenced → s.sw.life.fw.complete = true → s.sw.life.fw.headerOk = true → s.sw.life.fw.authentic = true →
      ∃ t f, exec .firmwareStart s = .next t ∧ f.loaded = true ∧ f.checking = false
        ∧ f.entry = BitVec.ofNat 32 (s.sw.life.fw.le 16 4) ∧ f.image = s.sw.life.fw.image
        ∧ (∀ k ∈ [0, 1, 10], t.sw.evt.bankAt k = { s.sw.evt.bankAt k with en := true })
        ∧ Completed s t 0 c ⟨0, 0, 0⟩ { s.sw with
            life := { s.sw.life with st := .config, safeCause := 0, wdog := some s.ao.refClk, wdogWarned := false, fw := f }
            walk := if s.sw.life.sweep = none then s.sw.walk.map fun w => { w with held := false } else s.sw.walk })

/-! ## Background walks (05, R116, R130 to R132; 06, R135 to R151; 10, R256 to R258; 17, R391 to R396; 14, R338) -/

/-- PART_SET, PIN_BIND, PIN_UNBIND, FLUSH, GATHER_SAVE, GATHER_RESTORE, GATHER_DRAIN: each begins its walk and runs on; a PART_SET
that withdraws no way completes at once, its changes waiting for the next frame boundary (R116, R135, R137, R142, R150, R256). -/
def Obligations.BackgroundWalksBegin : Prop :=
  (∀ (s : State) (n : BitVec 2) (c : RunCmd), CommandReady s n 0x0020 c →
    (c.pay.getLsbD 2 = true → bytesN c.pay 8 2 + byteN c.pay 10 ≤ 4096) → (c.pay.getLsbD 1 = true → byteN c.pay 5 ≠ 3) → (c.pay.getLsbD 0 = true → fld c.pay 16 16 &&& s.sw.heldWays = 0#16) →
    (s.sw.cache.setAhead &&& ~~~(partSet s.sw.cache c.pay) = 0#16 →
      ∃ t r, exec (.partSet n) s = .next t ∧ r.status = 0
        ∧ r.data = payload [(0, 2, (partSet s.sw.cache c.pay).toNat)]
        ∧ Completed s t n c r { s.sw with cache := { s.sw.cache with
            waySetNext := some (partSet s.sw.cache c.pay),
            groupsNext := s.sw.cache.groupsNext ++ partGroups c.pay, rtNext := s.sw.cache.rtNext ++ partRt c.pay } }) ∧
    (s.sw.cache.setAhead &&& ~~~(partSet s.sw.cache c.pay) ≠ 0#16 →
      ∃ t w, exec (.partSet n) s = .next t
        ∧ WalkBegins s.sw w n (.part (s.sw.cache.setAhead &&& ~~~(partSet s.sw.cache c.pay)) (partSet s.sw.cache c.pay)
            (partGroups c.pay) (partRt c.pay))
            (65536 * (waysOf (s.sw.cache.setAhead &&& ~~~(partSet s.sw.cache c.pay))).length)
        ∧ RunsOn s t n c { s.sw with
            cache := { s.sw.cache with waySetNext := some (s.sw.cache.setAhead &&& partSet s.sw.cache c.pay) }
            walk := some w })) ∧
  (∀ (s : State) (n : BitVec 2) (c : RunCmd), CommandReady s n 0x0021 c → checkBind s.params s.ao s.sw c.pay = none →
    ∃ t w, exec (.pinBind n) s = .next t ∧ WalkBegins s.sw w n (.bind (byteN c.pay 0)) (bytesN c.pay 16 8 * s.sw.map.k)
      ∧ RunsOn s t n c { s.sw with
          pin := { s.sw.pin with
            regions := sput s.sw.pin.regions (byteN c.pay 0)
              ⟨fld c.pay 8 2, fld c.pay 16 8, fld c.pay 64 52, bytesN c.pay 16 8, fld c.pay 32 16,
                (fld c.pay 64 52 : BitVec 52).toNat / 2 ^ 17 * s.sw.map.k, bytesN c.pay 16 8 * s.sw.map.k, .binding⟩ }
          walk := some w }) ∧
  (∀ (s : State) (n : BitVec 2) (c : RunCmd) (g : Region), CommandReady s n 0x0022 c → s.sw.region (byteN c.pay 0) = some g →
    g.ph = .bound → (g.typ = 2#2 → sget 0 s.sw.gth.armed (byteN c.pay 0) = 0) →
    ∃ t w l, exec (.pinUnbind n) s = .next t ∧ WalkBegins s.sw w n (.unbind (byteN c.pay 0)) g.n
      ∧ RunsOn s t n c { s.sw with pin := { s.sw.pin with regions := l }, walk := some w }
      ∧ (l.find? fun e => e.1 == byteN c.pay 0) = some (byteN c.pay 0, { g with ph := .unbinding })) ∧
  (∀ (s : State) (n : BitVec 2) (c : RunCmd), CommandReady s n 0x0070 c →
    ∃ t w, exec (.flush n) s = .next t ∧ RunsOn s t n c { s.sw with walk := some w }
      ∧ WalkBegins s.sw { w with cur := 0 } n
          (.flush (byteN c.pay 0) (byteN c.pay 1 == 0) (bytesN c.pay 4 8 / 128) (bytesN c.pay 12 8)) w.total
      ∧ w.cur = s.sw.flushFrom (byteN c.pay 1 == 0) (bytesN c.pay 4 8 / 128) (bytesN c.pay 12 8) 0
      ∧ (byteN c.pay 1 = 0 → w.total = 65536)
      ∧ ∀ e ∈ s.sw.cache.ev, s.sw.flushHas (byteN c.pay 1 == 0) (bytesN c.pay 4 8 / 128) (bytesN c.pay 12 8) e.line = true →
          e.ord ∈ w.evs) ∧
  ∀ (s : State) (n : BitVec 2) (c : RunCmd) (x : Template), s.sw.boundGather (byteN c.pay 0) = true →
    s.sw.template (byteN c.pay 0) = some x →
    (CommandReady s n 0x0051 c → bytesN c.pay 4 4 + bytesN c.pay 8 4 ≤ ctxCount (s.sw.regOf (byteN c.pay 0)) x →
      ∃ t w, exec (.gatherSave n) s = .next t ∧ RunsOn s t n c { s.sw with walk := some w }
        ∧ WalkBegins s.sw w n (.save (byteN c.pay 0) (bytesN c.pay 4 4) (bytesN c.pay 8 4) (fld c.pay 96 52) (fld c.pay 16 6)
            (byteN c.pay 1 == 1)) ((if byteN c.pay 1 = 1 then 2 else 1) * (bytesN c.pay 8 4 * x.c))
        ∧ w.m = bytesN c.pay 8 4 ∧ w.c = x.c) ∧
    (CommandReady s n 0x0052 c → bytesN c.pay 4 4 + bytesN c.pay 8 4 ≤ ctxCount (s.sw.regOf (byteN c.pay 0)) x →
      ∃ t w, exec (.gatherRestore n) s = .next t ∧ RunsOn s t n c { s.sw with walk := some w }
        ∧ WalkBegins s.sw w n (.restore (byteN c.pay 0) (bytesN c.pay 4 4) (fld c.pay 96 52) (fld c.pay 16 6)) 0 ∧ w.c = x.c) ∧
    (CommandReady s n 0x0053 c →
      ∃ t w, exec (.gatherDrain n) s = .next t ∧ RunsOn s t n c { s.sw with walk := some w }
        ∧ WalkBegins s.sw w n (.drain (byteN c.pay 0)) (ctxCount (s.sw.regOf (byteN c.pay 0)) x * x.c)
        ∧ w.m = ctxCount (s.sw.regOf (byteN c.pay 0)) x ∧ w.c = x.c)

/-- One unit of each kind of walk, in a slot that runs it and a store without errors: a PART_SET, PIN_UNBIND or FLUSH unit
passes a clean line and notes a dirty one, whose further unit takes it to the eviction buffer; a bind unit of a KIND 2 or 3
region writes a line of zeros; a repair unit reads at c12 and writes at c20, or makes a location RETIRED (R131, R135, R143,
R150, R394, R396). REPAIR_APPLY of a place that is not retired takes the lowest spare in order and moves its lines, or with no
spare left retires the locations; of a retired place it completes with REPAIR_EXHAUSTED (R391, R393, R396). -/
def Obligations.RepairMovesOrRetires : Prop :=
  (∀ (s : State) (w : Walk) (ways set : BitVec 16) (gs : List (Nat × Group)) (rt : List (Nat × BitVec 4)) (loc : Nat), WalkSlot s w →
    w.kind = .part ways set gs rt → w.again = false → s.sw.heldLoc loc = false →
    (w.todo = [] → loc = locOf (w.cur % 65536) ((waysOf ways).getD (w.cur / 65536) 0) →
      (tValid (s.sw.tag loc) = true → tKind (s.sw.tag loc) = 0 → tDirty (s.sw.tag loc) = false →
        ∃ t, exec .slotDecide s = .next t ∧ WalkStands s t w { w with cur := w.cur + 1 }
          ∧ ClkEnds s t { s.sw.setTag loc (clearedTag (s.sw.tag loc)) with walk := t.sw.walk }) ∧
      (tValid (s.sw.tag loc) = true → tKind (s.sw.tag loc) = 0 → tDirty (s.sw.tag loc) = true →
        ∃ t, exec .slotDecide s = .next t ∧ WalkStands s t w { w with cur := w.cur + 1, todo := [loc], extra := w.extra + 1 }
          ∧ ClkEnds s t { s.sw with walk := t.sw.walk })) ∧
    (∀ l, w.todo = loc :: l → tValid (s.sw.tag loc) = true → tKind (s.sw.tag loc) = 0 → tDirty (s.sw.tag loc) = true →
      tRetired (s.sw.tag loc) = false →
      ∃ t e, exec .slotDecide s = .next t
        ∧ WalkStands s t w { w with todo := l, count := w.count + 1, evs := w.evs ++ [s.sw.cache.nextOrd] }
        ∧ ClkEnds s t { s.sw.setTag loc (clearedTag (s.sw.tag loc)) with
            walk := t.sw.walk, cache := { s.sw.cache with evWait := [e], nextOrd := s.sw.cache.nextOrd + 1 } }
        ∧ e.ord = s.sw.cache.nextOrd ∧ e.line = tTag (s.sw.tag loc) * 65536 + loc / 16 ∧ e.why = .walk ∧ e.read = true
        ∧ e.ln = { s.sw.arr.stored loc with hdr := 0 })) ∧
  (∀ (s : State) (w : Walk) (op : Nat) (whole : Bool) (base lines : Nat), WalkSlot s w → w.kind = .flush op whole base lines →
    w.again = false →
    (w.todo = [] → (∀ i < 16, tValid (s.sw.tag (locOf w.cur i)) = true → tKind (s.sw.tag (locOf w.cur i)) = 0 →
        s.sw.flushHas whole base lines (s.sw.lineOf (locOf w.cur i)) = false) →
      ∃ t, exec .slotDecide s = .next t ∧ WalkStands s t w { w with cur := s.sw.flushFrom whole base lines (w.cur + 1) }
        ∧ ClkEnds s t { s.sw with walk := t.sw.walk }) ∧
    (∀ loc l, w.todo = loc :: l → tValid (s.sw.tag loc) = true → tKind (s.sw.tag loc) = 0 → tDirty (s.sw.tag loc) = true →
      tRetired (s.sw.tag loc) = false → s.sw.flushHas whole base lines (s.sw.lineOf loc) = true → op ≠ 1 →
      ∃ t e, exec .slotDecide s = .next t
        ∧ WalkStands s t w { w with todo := l, count := w.count + 1, evs := w.evs ++ [s.sw.cache.nextOrd] }
        ∧ ClkEnds s t { s.sw.setTag loc (if op = 0 then withDirty (s.sw.tag loc) false else clearedTag (s.sw.tag loc)) with
            walk := t.sw.walk, cache := { s.sw.cache with evWait := [e], nextOrd := s.sw.cache.nextOrd + 1 } }
        ∧ e.ord = s.sw.cache.nextOrd ∧ e.line = s.sw.lineOf loc ∧ e.why = .walk ∧ e.read = true
        ∧ e.ln = { s.sw.arr.stored loc with hdr := 0 })) ∧
  (∀ (s : State) (w : Walk) (r loc : Nat) (g : Region), WalkSlot s w → s.sw.region r = some g → s.sw.mp.wait = [] →
    loc = g.loc (g.l0 + w.cur) → w.todo = [] → w.again = false →
    (w.kind = .bind r → g.typ ≠ 0 → (∀ k, dValid (s.sw.dirAt k) = true) → s.sw.findDir (g.l0 + w.cur) = none →
      (tValid (s.sw.tag loc) = true → tKind (s.sw.tag loc) = 0) →
      ∃ t x, exec .slotDecide s = .next t ∧ WalkStands s t w { w with cur := w.cur + 1 }
        ∧ ClkEnds s t { s.sw.setTag loc (tagWord (tagOf (g.l0 + w.cur)) true false 0 (tRetired (s.sw.tag loc)) (g.typ.toNat + 1) r
            false) with walk := t.sw.walk }
        ∧ t.sw.pipe.wr = [x] ∧ x.loc = loc ∧ x.line = Line.zero ∧ x.flight = none ∧ x.at_ = none) ∧
    (w.kind = .unbind r → (tKind (s.sw.tag loc) ≠ 1 ∨ tDirty (s.sw.tag loc) = false) →
      ∃ t, exec .slotDecide s = .next t ∧ WalkStands s t w { w with cur := w.cur + 1 }
        ∧ ClkEnds s t { s.sw.setTag loc (clearedTag (s.sw.tag loc)) with walk := t.sw.walk }) ∧
    (w.kind = .unbind r → tKind (s.sw.tag loc) = 1 → tDirty (s.sw.tag loc) = true → tRetired (s.sw.tag loc) = false →
      ∃ t, exec .slotDecide s = .next t ∧ WalkStands s t w { w with cur := w.cur + 1, todo := [loc], extra := w.extra + 1 }
        ∧ ClkEnds s t { s.sw with walk := t.sw.walk })) ∧
  (∀ (s : State) (w : Walk) (p : Place) (i loc : Nat), WalkSlot s w → loc = p.loc w.cur → w.todo = [] → w.again = false →
    (w.kind = .move p i → tRetired (s.sw.tag loc) = false →
      ∃ t x a b, exec .slotDecide s = .next t ∧ WalkStands s t w { w with cur := w.cur + 1, count := w.count + 1 }
        ∧ ClkEnds s t { s.sw with walk := t.sw.walk }
        ∧ t.sw.pipe.wr = [x] ∧ x.loc = loc ∧ x.line = s.sw.arr.stored loc ∧ x.flight = none
        ∧ t.sw.pipe.acc = [a, b] ∧ a.at_ = s.sw.fr.clk + 12 ∧ a.write = false ∧ b.at_ = s.sw.fr.clk + 20 ∧ b.write = true
        ∧ a.rank = 2 ∧ b.rank = 2) ∧
    (w.kind = .retire p → tValid (s.sw.tag loc) = false ∨ tDirty (s.sw.tag loc) = false →
      (tValid (s.sw.tag loc) = true → tKind (s.sw.tag loc) = 0 → s.sw.lineOpen loc = false) →
      ∃ t, exec .slotDecide s = .next t ∧ WalkStands s t w { w with cur := w.cur + 1 }
        ∧ ClkEnds s t { s.sw.setTag loc (if tValid (s.sw.tag loc) = true ∧ tKind (s.sw.tag loc) ≠ 0
            then withRetired (s.sw.tag loc) true else withRetired 0 true) with walk := t.sw.walk })) ∧
  ∀ (s : State) (n : BitVec 2) (c : RunCmd) (p : Place), CommandReady s n 0x0082 c →
    p = ⟨byteN c.pay 0, byteN c.pay 1, byteN c.pay 2, byteN c.pay 3, bytesN c.pay 4 2⟩ →
    (p ∈ s.sw.rep.retired → ∃ t r x, exec (.repairApply n) s = .next t ∧ r.status = 0x0C
      ∧ Completed s t n c r { s.sw with rep := x }
      ∧ { x with log := s.sw.rep.log, lastRemoved := s.sw.rep.lastRemoved } = s.sw.rep) ∧
    (∀ i, p ∉ s.sw.rep.retired → s.sw.rep.spareFor p = some i →
      ∃ t w x, exec (.repairApply n) s = .next t ∧ WalkBegins s.sw w n (.move p i) (if p.kind = 0 then 2 else 1024)
        ∧ RunsOn s t n c { s.sw with rep := x, walk := some w }
        ∧ (p, i) ∈ x.map ∧ (∀ q j, (q, j) ∈ x.map → q ≠ p → (q, j) ∈ s.sw.rep.map)
        ∧ i < (if p.kind = 0 then 8 else 4) ∧ s.sw.rep.spareTaken p i = false
        ∧ (∀ j, (p, j) ∈ s.sw.rep.map → j ≠ i)
        ∧ x.retired = s.sw.rep.retired) ∧
    (p ∉ s.sw.rep.retired → s.sw.rep.spareFor p = none → s.sw.rep.retired.length < 256 →
      ∃ t w x, exec (.repairApply n) s = .next t ∧ WalkBegins s.sw w n (.retire p) (if p.kind = 0 then 2 else 1024)
        ∧ RunsOn s t n c { s.sw with rep := x, walk := some w } ∧ x.retired = s.sw.rep.retired ++ [p])

/-- WALK_DONE of a walk that has met its completion condition: the regions, tables and the repair count as its command leaves them,
and the command completes. FLUSH, PIN_UNBIND and PART_SET do not complete while a dirty line that they found, or one that they
took to the eviction buffer, has not been written, nor a retirement while a dirty KIND 1 line has not reached memory, nor a held
bind, gather walk or move (R132, R136, R143, R150, R338, R396, R412). -/
def Obligations.WalksComplete : Prop :=
  (∀ (s : State) (w : Walk) (n : BitVec 2) (c : RunCmd), s.awake = true → s.sw.walk = some w → s.sw.walkEnded w = true →
    w.ch = some n → (s.sw.mbx.ch n).run = some c →
    ∃ t r, exec .walkDone s = .next t ∧ (t.sw.src 484).fresh ≠ 0
      ∧ (match w.kind with
        | .part ways set groups rt => r.status = 0 ∧ r.data = payload [(0, 2, set.toNat), (2, 2, (waysOf ways).length)]
            ∧ Completed s t n c r { s.sw with walk := none, cache := { s.sw.cache with
                waySetNext := some set, groupsNext := s.sw.cache.groupsNext ++ groups, rtNext := s.sw.cache.rtNext ++ rt } }
        | .bind g => r.status = 0 ∧ ∃ l, Completed s t n c r { s.sw with walk := none, pin := { s.sw.pin with regions := l } }
            ∧ ∀ x, s.sw.region g = some x → (l.find? fun e => e.1 == g) = some (g, { x with ph := .bound })
                ∧ r.data = payload [(0, 4, x.n), (4, 1, (x.n + 65535) / 65536), (8, 4, 0xFFFFFFFF)]
        | .unbind g => r.status = 0 ∧ r.data = payload [(0, 4, w.count)] ∧ Completed s t n c r { s.sw with
            walk := none, pin := { s.sw.pin with regions := sdel s.sw.pin.regions g }
            gth := { s.sw.gth with tmpl := sdel s.sw.gth.tmpl g, armed := sdel s.sw.gth.armed g } }
        | .flush _ _ _ _ => r.status = 0 ∧ r.data = payload [(0, 4, w.count)] ∧ Completed s t n c r { s.sw with walk := none }
        | .drain _ => r.status = 0 ∧ r.data = payload [(0, 4, w.count)] ∧ Completed s t n c r { s.sw with walk := none }
        | .save _ _ _ _ _ _ => r.status = (if w.failed then 0x0F else 0) ∧ Completed s t n c r { s.sw with walk := none }
        | .restore _ _ _ _ => r.status = (if w.failed then 0x0F else w.status) ∧ Completed s t n c r { s.sw with walk := none }
        | .move _ _ => r.status = 0 ∧ r.data = payload [(4, 4, w.count)]
            ∧ Completed s t n c r { s.sw with walk := none, rep := { s.sw.rep with applied := s.sw.rep.applied + 1 } }
        | .retire _ => r.status = 0x0C ∧ r.data = payload [(0, 1, 1), (8, 4, w.cur)] ∧ (t.sw.src 19).fresh ≠ 0
            ∧ Completed s t n c r { s.sw with walk := none, rep := { s.sw.rep with applied := s.sw.rep.applied + 1 } })) ∧
  ∀ (s : State) (w : Walk), s.awake = true → s.sw.walk = some w →
    (match w.kind with
      | .part _ _ _ _ => w.todo ≠ [] ∨ ∃ e ∈ s.sw.cache.ev, e.ord ∈ w.evs
      | .unbind _ => w.todo ≠ [] ∨ ∃ e ∈ s.sw.cache.ev, e.ord ∈ w.evs
      | .flush _ _ _ _ => w.todo ≠ [] ∨ w.again = true ∨ ∃ e ∈ s.sw.cache.ev, e.ord ∈ w.evs
      | .retire _ => w.todo ≠ []
      | _ => w.held = true) → exec .walkDone s = .next s

/-! ## Arrivals on the KY port (02, R33 to R38, R46; 04, R93, R95; 07, R164, R180; 13, R304 to R306) -/

/-- REQ_FLIT_ARRIVAL with a credit and good parity: the request enters the queue and returns its credit, is refused with QUOTA, its
credit returned with the RETRY, or waits in the input register, by the rows of R305; it waits for its data flit unless that was held
for it. A dead domain refuses it with DOMAIN_DEAD (R41, R180, R206, R304 to R306). -/
def Obligations.RequestsEnterTheQueue : Prop :=
  ∀ (s : State) (f : BitVec 144) (r : Req), s.awake = true → s.sw.port.linkUp = true → s.sw.port.credIn.req ≠ 0 →
    reqParityOk f = true → s.sw.life.st ≠ .fenced →
    r = { reqOf f with dlValid := (reqOf f).dlValid && (s.sw.cls (reqOf f).qos.toNat).deadline } →
    ∃ t, exec (.reqFlitArrival f) s = .next t ∧ t.ao = s.ao ∧ t.sw.port.credIn = { s.sw.port.credIn with req := s.sw.port.credIn.req - 1 }
      ∧ { t.sw with q := s.sw.q, port := s.sw.port, pipe := s.sw.pipe, evt := s.sw.evt, pmc := s.sw.pmc, trc := s.sw.trc } = s.sw
      ∧ (s.sw.life.drain ≠ none → TurnedAway s t .req r.txn r.src 0xC6 0x05 ∧ t.sw.q = s.sw.q)
      ∧ (s.sw.life.drain = none → s.sw.q.reqReg ≠ [] → ∃ e, t.sw.q.reqReg = s.sw.q.reqReg ++ [e] ∧ e.r = r
          ∧ t.sw.q.req = s.sw.q.req ∧ t.sw.pipe = s.sw.pipe ∧ t.sw.port.crdDue = s.sw.port.crdDue)
      ∧ (s.sw.life.drain = none → s.sw.q.reqReg = [] → s.sw.heldQ r.qos.toNat < (s.sw.cls r.qos.toNat).qCap →
          (s.sw.heldQ r.qos.toNat < (s.sw.cls r.qos.toNat).qRsv ∧ 1 ≤ s.sw.freeQ ∨ s.sw.owed < s.sw.freeQ) →
          ∃ e, t.sw.q.req = s.sw.q.req ++ [e] ∧ t.sw.q.reqReg = [] ∧ e.r = r ∧ e.arr = s.sw.fr.clk ∧ e.self = none
            ∧ e.born = s.sw.fr.frameNo ∧ t.sw.pipe = s.sw.pipe
            ∧ e.dat = (if needsData r then (s.sw.q.datWait.find? fun d => d.1.src == r.src && d.1.txn == r.txn).map (·.1) else none)
            ∧ t.sw.port.crdDue = s.sw.port.crdDue ++ [(Lane.req, s.sw.fr.clk + 1)])
      ∧ (s.sw.life.drain = none → s.sw.q.reqReg = [] → (s.sw.cls r.qos.toNat).qCap ≤ s.sw.heldQ r.qos.toNat ∨
            (s.sw.cls r.qos.toNat).qRsv ≤ s.sw.heldQ r.qos.toNat ∧ 1 ≤ s.sw.freeQ ∧ s.sw.freeQ ≤ s.sw.owed →
          TurnedAway s t .req r.txn r.src 0xC5 0x14 ∧ t.sw.q.req = s.sw.q.req ∧ t.sw.q.reqReg = [])
      ∧ (s.sw.life.drain = none → s.sw.q.reqReg = [] → s.sw.heldQ r.qos.toNat < (s.sw.cls r.qos.toNat).qCap → s.sw.freeQ = 0 →
          ∃ e, t.sw.q.reqReg = [e] ∧ e.r = r ∧ t.sw.q.req = s.sw.q.req ∧ t.sw.pipe = s.sw.pipe
            ∧ t.sw.port.crdDue = s.sw.port.crdDue)

/-- GTH_FLIT_ARRIVAL of a contribution with good header parity: it takes a readout entry and an ingress entry, or is held for its
own slot of this clk, or is refused with GTH_BUSY, its credit returned with the RETRY; a payload group with a parity error is
poisoned; a gather unit held in block reset answers ABORTED, a dead domain DOMAIN_DEAD. IO_FLIT_ARRIVAL: a read or a
write enters the IO queue; another opcode is discarded with IO_PROTOCOL, a header parity error with IO_PARITY (R34, R38, R46,
R81, R95, R206, R236, R414). -/
def Obligations.ContributionsAndIoArrive : Prop :=
  (∀ (s : State) (f : BitVec 1296) (g : Gth), s.awake = true → s.sw.port.linkUp = true → s.sw.port.credIn.gth ≠ 0 →
    gthHeaderOk f = true → s.sw.life.st ≠ .fenced →
    g = { gthOf f with poison := (gthOf f).poison ||| groupsOf (gthBadBytes f)
                       dlValid := (gthOf f).dlValid && (s.sw.cls (gthOf f).qos.toNat).deadline } →
    ∃ t, exec (.gthFlitArrival f) s = .next t ∧ t.ao = s.ao ∧ t.sw.port.credIn = { s.sw.port.credIn with gth := s.sw.port.credIn.gth - 1 }
      ∧ { t.sw with q := s.sw.q, port := s.sw.port, pipe := s.sw.pipe, evt := s.sw.evt, pmc := s.sw.pmc, trc := s.sw.trc
                    tel := s.sw.tel } = s.sw
      ∧ (s.sw.life.drain ≠ none → TurnedAway s t .gth g.txn g.src 0xC6 0x05 ∧ t.sw.q = s.sw.q)
      ∧ (s.sw.life.drain = none → s.ao.held 0 = true → TurnedAway s t .gth g.txn g.src 0xC6 0x04 ∧ t.sw.q = s.sw.q)
      ∧ (∀ ro ing, s.sw.life.drain = none → s.ao.held 0 = false → takeEntry (s.sw.fr.lockedOnly g.qos.toNat 1) (s.sw.roUsed true) (s.sw.roUsed false) 32 64 = some ro →
          takeEntry (s.sw.fr.lockedOnly g.qos.toNat 1) (s.sw.ingUsed true) (s.sw.ingUsed false) 16 48 = some ing →
          s.sw.goesDirect g = false →
          ∃ e, t.sw.q = { s.sw.q with gth := s.sw.q.gth ++ [e], nextId := s.sw.q.nextId + 1 } ∧ e.g = g ∧ e.arr = s.sw.fr.clk
            ∧ e.ingRes = ing ∧ e.roRes = ro ∧ e.fwd = none ∧ t.sw.pipe = s.sw.pipe
            ∧ t.sw.port.crdDue = s.sw.port.crdDue ++ [(Lane.gth, s.sw.fr.clk + 1)])
      ∧ (∀ ro, s.sw.life.drain = none → s.ao.held 0 = false →
          takeEntry (s.sw.fr.lockedOnly g.qos.toNat 1) (s.sw.roUsed true) (s.sw.roUsed false) 32 64 = some ro →
          s.sw.goesDirect g = true →
          ∃ e, t.sw.q = { s.sw.q with direct := some e, nextId := s.sw.q.nextId + 1 } ∧ e.g = g ∧ e.arr = s.sw.fr.clk
            ∧ e.roRes = ro ∧ t.sw.pipe = s.sw.pipe ∧ t.sw.port.crdDue = s.sw.port.crdDue)
      ∧ (s.sw.life.drain = none → s.ao.held 0 = false →
          takeEntry (s.sw.fr.lockedOnly g.qos.toNat 1) (s.sw.roUsed true) (s.sw.roUsed false) 32 64 = none ∨
            s.sw.goesDirect g = false ∧ takeEntry (s.sw.fr.lockedOnly g.qos.toNat 1) (s.sw.ingUsed true) (s.sw.ingUsed false) 16 48 = none →
          TurnedAway s t .gth g.txn g.src 0xC5 0x13 ∧ t.sw.q = s.sw.q)) ∧
  ∀ (s : State) (f : BitVec 720), s.awake = true → s.sw.port.linkUp = true → s.sw.port.credIn.io ≠ 0 →
    ∃ t, exec (.ioFlitArrival f) s = .next t ∧ t.ao = s.ao ∧ t.sw.port.credIn = { s.sw.port.credIn with io := s.sw.port.credIn.io - 1 }
      ∧ { t.sw with q := s.sw.q, port := s.sw.port, evt := s.sw.evt, pmc := s.sw.pmc, trc := s.sw.trc, tel := s.sw.tel } = s.sw
      ∧ (ioBadHeader f = [] → (ioOf f).op = 0x01 ∨ (ioOf f).op = 0x02 →
          ∃ e, t.sw.q = { s.sw.q with io := s.sw.q.io ++ [e], nextId := s.sw.q.nextId + 1 } ∧ e.f = ioOf f ∧ e.arr = s.sw.fr.clk
            ∧ e.parErr = !(ioBadBytes f).isEmpty ∧ t.sw.port.crdDue = s.sw.port.crdDue)
      ∧ (ioBadHeader f = [] → (ioOf f).op ≠ 0x01 → (ioOf f).op ≠ 0x02 → t.sw.q = s.sw.q ∧ (t.sw.src 10).fresh ≠ 0
            ∧ t.sw.port.crdDue = s.sw.port.crdDue ++ [(Lane.io, s.sw.fr.clk + 1)])
      ∧ (ioBadHeader f ≠ [] → t.sw.q = s.sw.q ∧ (t.sw.src 11).fresh ≠ 0
            ∧ t.sw.port.crdDue = s.sw.port.crdDue ++ [(Lane.io, s.sw.fr.clk + 1)])

/-- A coherent flit without a credit is fatal cause 4 with its channel, one with a parity error cause 3, and such a flit goes no
further; an IO flit without a credit raises IO_PROTOCOL (R34, R38, R205). -/
def Obligations.BadFlitsAreFatal : Prop :=
  (∀ (s : State) (req : BitVec 144) (rsp : BitVec 72) (dat : BitVec 1224) (gth : BitVec 1296) (c : Instr) (l : Lane) (k : Nat)
      (ok : Bool),
    (c = .reqFlitArrival req ∧ l = .req ∧ k = 0 ∧ ok = reqParityOk req) ∨
      (c = .rspFlitArrival rsp ∧ l = .rsp ∧ k = 1 ∧ ok = rspParityOk rsp) ∨
      (c = .datFlitArrival dat ∧ l = .dat ∧ k = 2 ∧ ok = datParityOk dat) ∨
      (c = .gthFlitArrival gth ∧ l = .gth ∧ k = 3 ∧ ok = gthHeaderOk gth) →
    s.awake = true → s.sw.port.linkUp = true → s.sw.domainDown = false → s.sw.life.fatal = none →
    (s.sw.port.credIn.get l = 0 → ok = true → ∃ t, exec c s = .next t ∧ t.sw.life.fatal = some (4, BitVec.ofNat 17 k)
      ∧ t.sw.q = s.sw.q ∧ t.sw.home = s.sw.home ∧ t.sw.port = s.sw.port ∧ t.ao = s.ao) ∧
    (s.sw.port.credIn.get l ≠ 0 → ok = false → ∃ t, exec c s = .next t ∧ t.sw.life.fatal = some (3, BitVec.ofNat 17 k)
      ∧ t.sw.q = s.sw.q ∧ t.sw.home = s.sw.home ∧ t.sw.port.crdDue = s.sw.port.crdDue ++ [(l, s.sw.fr.clk + 1)] ∧ t.ao = s.ao)) ∧
  ∀ (s : State) (f : BitVec 720), s.awake = true → s.sw.port.linkUp = true → s.sw.port.credIn.io = 0 →
    ∃ t, exec (.ioFlitArrival f) s = .next t ∧ Raised s.sw t.sw 10 ((ioOf f).src.setWidth 64)
      ∧ { t.sw with evt := s.sw.evt, trc := s.sw.trc } = s.sw ∧ t.ao = s.ao

/-- DAT_FLIT_ARRIVAL pairs WDATA or OPERAND with its request, or holds it; RSP_FLIT_ARRIVAL and DAT_FLIT_ARRIVAL match answers
to the slice's own requests, snoop answers and COMP_ACK; a flit that matches nothing raises COH_PROTOCOL with its SRC and
nothing else. CREDIT_RETURN adds an outbound credit up to 63 (R33, R35, R41, R164, R180, R272). -/
def Obligations.AnswersAndCreditsArrive : Prop :=
  (∀ (s : State) (f : BitVec 1224) (d : Dat), s.awake = true → s.sw.port.linkUp = true → s.sw.port.credIn.dat ≠ 0 →
    datParityOk f = true → s.sw.life.st ≠ .fenced → s.sw.life.drain = none → d = datOf f →
    ∃ t, exec (.datFlitArrival f) s = .next t ∧ t.ao = s.ao
      ∧ t.sw.port = { s.sw.port with credIn := { s.sw.port.credIn with dat := s.sw.port.credIn.dat - 1 }
                                     crdDue := s.sw.port.crdDue ++ [(Lane.dat, s.sw.fr.clk + 1)] }
      ∧ (d.dop = 0 ∨ d.dop = 4 →
          { t.sw with q := s.sw.q, port := s.sw.port, evt := s.sw.evt, pmc := s.sw.pmc, trc := s.sw.trc } = s.sw
          ∧ (s.sw.q.req.any (fun e => e.wants d) = true →
              t.sw.q = { s.sw.q with req := updFirst (fun e => e.wants d) (fun e => { e with
                dat := some d, arr := s.sw.fr.clk, df := s.sw.extendDeadline e.r.deadline }) s.sw.q.req })
          ∧ (s.sw.q.req.any (fun e => e.wants d) = false → s.sw.q.reqReg.any (fun e => e.wants d) = false →
              (s.sw.q.datDrop.any fun x => x.1 == d.src && x.2 == d.txn) = false →
              t.sw.q = { s.sw.q with datWait := s.sw.q.datWait ++ [(d, s.sw.fr.clk)] }))
      ∧ (d.dop = 2 → s.sw.txn d.txn.toNat = none → (t.sw.src 12).fresh ≠ 0
          ∧ { t.sw with port := s.sw.port, evt := s.sw.evt, pmc := s.sw.pmc, trc := s.sw.trc } = s.sw)
      ∧ (∀ q line rd, d.dop = 1 → s.sw.awaiting d.txn.toNat = some q → q.reads = true → q.owner = .image line rd →
          { t.sw with port := s.sw.port, evt := s.sw.evt, pmc := s.sw.pmc, trc := s.sw.trc } = { s.sw with
            gth := { s.sw.gth with self := dropFirst (fun x => x.id == q.id) s.sw.gth.self }
            walk := s.sw.walk.map fun w => { w with img := sput w.img line ⟨d.data, d.poison, 0⟩ } })
      ∧ (d.dop = 1 → s.sw.awaiting d.txn.toNat = none → (t.sw.src 12).fresh ≠ 0
          ∧ { t.sw with port := s.sw.port, evt := s.sw.evt, pmc := s.sw.pmc, trc := s.sw.trc } = s.sw)) ∧
  (∀ (s : State) (f : BitVec 72) (m : Rsp), s.awake = true → s.sw.port.linkUp = true → s.sw.port.credIn.rsp ≠ 0 →
    rspParityOk f = true → s.sw.life.st ≠ .fenced → s.sw.life.drain = none → m = rspOf f →
    ∃ t, exec (.rspFlitArrival f) s = .next t ∧ t.ao = s.ao
      ∧ t.sw.port = { s.sw.port with credIn := { s.sw.port.credIn with rsp := s.sw.port.credIn.rsp - 1 }
                                     crdDue := s.sw.port.crdDue ++ [(Lane.rsp, s.sw.fr.clk + 1)] }
      ∧ (∀ q, m.op = 0xC5 → s.sw.awaiting m.txn.toNat = some q → q.owner ≠ .spent →
          { t.sw with port := s.sw.port } = { s.sw with gth := { s.sw.gth with
            self := updFirst (fun x => x.id == q.id) (fun x => { x with st := .resendAt (s.sw.fr.clk + 32) }) s.sw.gth.self } })
      ∧ (m.op = 0x83 → s.sw.txn m.txn.toNat = none → Raised s.sw t.sw 12 (m.src.setWidth 64)
          ∧ { t.sw with port := s.sw.port, evt := s.sw.evt, trc := s.sw.trc } = s.sw)
      ∧ (∀ x, m.op = 0x83 → s.sw.txn m.txn.toNat = some x → x.await.any (fun a => a.1 == m.src.toNat) = true →
          x.allows m.state false = true →
          { t.sw with port := s.sw.port, home := s.sw.home } = s.sw
            ∧ t.sw.txn m.txn.toNat = some { x with
                await := dropFirst (fun a => a.1 == m.src.toNat) x.await, last := s.sw.fr.clk, born := s.sw.fr.frameNo
                ownerAns := if dOwned x.base = true ∧ dOwner x.base = m.src.toNat then some (m.state, false) else x.ownerAns
                answers := x.answers ++ [⟨m.src, m.state, none⟩] })
      ∧ (∀ x, m.op = 0x82 → s.sw.home.txns = [x] → x.kind = .req → x.needAck = true → x.acked = false → x.ph = .ack →
          x.r.src = m.src → x.r.txn = m.txn → x.evict = none → x.reading = false →
          (∀ w ∈ s.sw.pipe.wr, w.txn ≠ some x.idx) → (∀ e ∈ s.sw.cache.evWait, e.txn ≠ some x.idx) →
          { t.sw with port := s.sw.port, arr := s.sw.arr, evt := s.sw.evt, pmc := s.sw.pmc, trc := s.sw.trc }
              = { s.sw with home := { s.sw.home with txns := [] } }
            ∧ ∀ k, x.dirKey = some k → t.sw.dirAt k = if dBase x.resolve.2 = 0 then 0 else withOpen x.resolve.2 false)) ∧
  ∀ (s : State) (l : Lane), s.awake = true → s.sw.port.linkUp = true →
    ∃ t, exec (.creditReturn l) s = .next t ∧ t.ao = s.ao ∧ { t.sw with port := s.sw.port } = s.sw
      ∧ (t.sw.port.credOut.get l).toNat = min 63 ((s.sw.port.credOut.get l).toNat + 1)
      ∧ (∀ k, k ≠ l → t.sw.port.credOut.get k = s.sw.port.credOut.get k)
      ∧ { t.sw.port with credOut := s.sw.port.credOut } = s.sw.port

/-! ## Slots (04, R93 to R101; 19, R433) -/

/-- decide_slot of R97: a locked slot admits the oldest eligible request of its class and channel or nothing; a REF slot runs
background work that is pending; an owned slot that has a request of its own admits the oldest of these; any other slot admits, of
the requests that are not locked-only, the one of the earliest deadline; where none has a deadline, the class next in order whose
guaranteed minimum is not met; where every one is met, the class next in order; and runs background work only where no request
contends. -/
def Obligations.SlotDecision : Prop :=
  ∀ (s : Sw) (p : Params) (ao : AlwaysOn),
    (∀ c t, s.choose p ao = .pick c t → c ∈ s.eligible p ∧ s.admits c = true
      ∧ (t ≠ .locked → t ≠ .owned → s.lockedCand c = false)
      ∧ (t = .locked ∨ t = .owned → c.cls = eClass s.slotEntry ∧ c.chan = eChan s.slotEntry
          ∧ ∀ x ∈ s.eligible p, s.admits x = true → x.cls = c.cls → x.chan = c.chan → c.age ≤ x.age)
      ∧ (t = .deadline → c.deadline ≠ none
          ∧ ∀ x d, Contends s p x → x.deadline = some d → (c.deadline.getD 0).toNat ≤ d.toNat)
      ∧ (t = .minimum → belowMinimum s c.cls = true
          ∧ ∀ x, Contends s p x → x.deadline = none
              ∧ (belowMinimum s x.cls = true → cyclic s.fr.minPtr c.cls ≤ cyclic s.fr.minPtr x.cls))
      ∧ (t = .bestEffort → ∀ x, Contends s p x → x.deadline = none ∧ belowMinimum s x.cls = false
          ∧ cyclic s.fr.bePtr c.cls ≤ cyclic s.fr.bePtr x.cls)) ∧
    (eValid s.slotEntry = true → eLock s.slotEntry = true →
      (∃ c, s.choose p ao = .pick c .locked)
      ∨ s.choose p ao = .empty ∧ ∀ x ∈ s.eligible p, s.admits x = true → ¬ (x.cls = eClass s.slotEntry ∧ x.chan = eChan s.slotEntry)) ∧
    (eValid s.slotEntry = true → eLock s.slotEntry = false → eChan s.slotEntry = 3 → s.bgPending ao = true →
      s.choose p ao = .background) ∧
    (eValid s.slotEntry = true → eLock s.slotEntry = false → eChan s.slotEntry ≠ 3 →
      (∃ x ∈ s.eligible p, s.admits x = true ∧ x.cls = eClass s.slotEntry ∧ x.chan = eChan s.slotEntry) →
      ∃ c, s.choose p ao = .pick c .owned) ∧
    (s.choose p ao = .background → s.bgPending ao = true
      ∧ (eValid s.slotEntry = true ∧ eChan s.slotEntry = 3 ∨ ∀ x, ¬ Contends s p x)) ∧
    (s.choose p ao = .empty → eValid s.slotEntry = true ∧ eLock s.slotEntry = true
      ∨ s.bgPending ao = false ∧ ∀ x, ¬ Contends s p x)

/-- SLOT_DECIDE in a quiet slice with empty queues counts a front-end slot and moves the frame by one clk; a fatal cause found in the
clk declares the domain dead (R205, R206, R357). A request that it admits enters the pipeline, or is refused at ACC with DECODE or
NOT_HOME 10 clk later; at MAP one of another domain is refused with ACCESS; at RES one to a line or set held by another's ticket, or
without a transaction or directory way, is refused with RETRY and tracked, and its fourth refusal issues a ticket (R17, R74, R84,
R85, R99, R147, R187, R190 to R192, R433, R441). -/
def Obligations.SlotsEndTheClk : Prop :=
  (∀ (s : State), s.awake = true → Quiet s.sw → s.sw.q.req = [] → s.sw.q.gth = [] → s.sw.q.io = [] →
    s.sw.bgPending s.ao = false →
    ∃ t, exec .slotDecide s = .next t ∧ ClkEnds s t s.sw ∧ t.sw.pipe = s.sw.pipe
      ∧ t.sw.fr = { s.sw.fr with clk := s.sw.fr.clk + 1, pos := s.sw.fr.pos + 1
                                 now := t.sw.fr.now, report := t.sw.fr.report }
      ∧ (s.sw.fr.report = [] → t.sw.fr.now = { s.sw.fr.now with front := s.sw.fr.now.front + 1 } ∧ t.sw.fr.report = [])
      ∧ t.sw.mp = { s.sw.mp with wrPin := [], rdPin := none, rb := min 256 (s.sw.mp.rb + issueLimit s.sw.mp.level)
                                 wb := min 256 (s.sw.mp.wb + issueLimit s.sw.mp.level) }
      ∧ t.sw.port.reqOut = none ∧ t.sw.port.rspOut = none ∧ t.sw.port.datOut = none ∧ t.sw.port.ioOut = none
      ∧ t.sw.port.snpOut = none ∧ t.sw.port.gthOut = none) ∧
  (∀ (s : State) (code : BitVec 4) (detail : BitVec 17) (d : DomRec), s.awake = true → QuietBut s.sw [] →
    s.sw.choose s.params s.ao = .empty → s.sw.life.fatal = some (code, detail) → d = s.ao.dom →
    ∃ t, exec .slotDecide s = .next t ∧ t.ao.domFatalOut = true ∧ t.ao.rstReqOut = true
      ∧ t.ao.dom = (if d.dead = true then { d with again := true } else ⟨true, false, code, detail, s.sw.fr.gtime⟩)
      ∧ t.sw.life.drain = some s.sw.fr.clk ∧ t.sw.life.fatal = none ∧ (t.sw.src 1).pend = true
      ∧ t.sw.q.req = [] ∧ t.sw.q.gth = [] ∧ t.sw.q.io = s.sw.q.io
      ∧ ∀ e ∈ s.sw.q.req, e.self = none → ∃ r ∈ t.sw.pipe.rsp, r.due = s.sw.fr.clk + 1
          ∧ r.body = .rsp ⟨0xC6, e.r.txn, e.r.src, s.params.sliceRid, 0x05, 0⟩) ∧
  (∀ (s : State) (e : ReqEnt) (k : Tier3), s.awake = true → Quiet s.sw → s.sw.choose s.params s.ao = .pick (.req e) k →
    e.self = none →
    ∃ t x, exec .slotDecide s = .next t ∧ ClkEnds s t { s.sw with
        q := { s.sw.q with req := dropFirst (fun y => y.seq == e.seq) s.sw.q.req }, qos := t.sw.qos }
      ∧ sget 0 t.sw.fr.granted e.r.qos.toNat = sget 0 s.sw.fr.granted e.r.qos.toNat + 1
      ∧ t.sw.pipe.staged = [x] ∧ x.acc = s.sw.fr.clk ∧ x.cand = .req e ∧ x.locked = (k == .locked) ∧ x.gtime = s.sw.fr.gtime
      ∧ (∀ kd, kindOf e.r.op = some kd → formOk e.r = true → (kd.caching = true → e.r.src.toNat < s.sw.life.agents) →
          s.sw.isHome s.params (laddrOf e.r.addr) = true → x.out = none ∧ t.sw.pipe.rsp = [])
      ∧ (kindOf e.r.op = none ∨ formOk e.r = false
          ∨ (∃ kd, kindOf e.r.op = some kd ∧ kd.caching = true ∧ s.sw.life.agents ≤ e.r.src.toNat) → x.out = some .error
          ∧ AnswersWith t (s.sw.fr.clk + 10) (.rsp ⟨0xC6, e.r.txn, e.r.src, s.params.sliceRid, 0x03, 0⟩)
          ∧ (s.sw.fr.report = [] → t.sw.fr.now = { s.sw.fr.now with wasted := s.sw.fr.now.wasted + 1 }))
      ∧ (∀ kd, kindOf e.r.op = some kd → formOk e.r = true → (kd.caching = true → e.r.src.toNat < s.sw.life.agents) →
          s.sw.isHome s.params (laddrOf e.r.addr) = false → x.out = some .error
          ∧ AnswersWith t (s.sw.fr.clk + 10) (.rsp ⟨0xC6, e.r.txn, e.r.src, s.params.sliceRid, 0x01, 0⟩))) ∧
  (∀ (s : State) (e : ReqEnt) (x : Staged) (n : Nat) (g : Region), s.awake = true → QuietBut s.sw [x] → s.sw.life.fatal = none →
    s.sw.choose s.params s.ao = .empty → x.cand = .req e → x.out = none → e.self = none → x.acc + 2 = s.sw.fr.clk + 1 →
    s.sw.regionOf (s.sw.map.index (laddrOf e.r.addr)) = some (n, g) →
    ∃ t, exec .slotDecide s = .next t ∧ ClkEnds s t s.sw
      ∧ (g.owner ≠ e.r.domain → t.sw.pipe.staged = [{ x with out := some .error }]
          ∧ AnswersWith t (x.acc + 10) (.rsp ⟨0xC6, e.r.txn, e.r.src, s.params.sliceRid, 0x02, 0⟩))
      ∧ (g.owner = e.r.domain → t.sw.pipe.staged = [x] ∧ t.sw.pipe.rsp = [])) ∧
  ∀ (s : State) (e : ReqEnt) (x : Staged) (kd : ReqKind) (l : Nat) (st : BitVec 8), s.awake = true → QuietBut s.sw [x] →
    s.sw.life.fatal = none → s.sw.choose s.params s.ao = .empty → x.cand = .req e → x.out = none → e.self = none →
    x.acc + 7 = s.sw.fr.clk + 1 → kindOf e.r.op = some kd → l = s.sw.map.index (laddrOf e.r.addr) → s.sw.regionOf l = none →
    s.ao.blockHolds = [] → s.sw.arr.errs = [] → s.sw.pipe.undo = [] → (∀ k, dValid (s.sw.dirAt k) = true) →
    (st = 0x11 ∧ (s.sw.isOpen l = true ∨ ∃ k m, s.sw.home.tickets = k :: m ∧ k.is e.r.src e.r.txn l = false
        ∧ k.status = 0x11 ∧ k.line = l)) ∨
      (st = 0x10 ∧ s.sw.isOpen l = false ∧ s.sw.home.tickets = [] ∧ s.sw.lookup l = .miss ∧ kd = .readOnce
        ∧ 256 ≤ s.sw.home.txns.length) ∨
      (st = 0x12 ∧ s.sw.isOpen l = false ∧ s.sw.home.tickets = [] ∧ s.sw.lookup l ≠ .sideWait ∧ kd = .readShared
        ∧ s.sw.home.txns.length + 2 ≤ 256 ∧ s.sw.findDir l = none ∧ s.sw.freeDir l = none ∧ s.sw.dirVictim e.r l = none) →
    ∃ t, exec .slotDecide s = .next t ∧ ClkEnds s t { s.sw with home := t.sw.home } ∧ t.sw.pipe.staged = []
      ∧ AnswersWith t (x.acc + 10) (.rsp ⟨0xC5, e.r.txn, e.r.src, s.params.sliceRid, st, 0⟩)
      ∧ t.sw.home.txns = s.sw.home.txns
      ∧ (s.sw.home.tracker = [] → t.sw.home.tracker = [⟨0, e.r.src, e.r.txn, l, st, 1, s.sw.fr.frameNo⟩]
          ∧ t.sw.home.tickets = s.sw.home.tickets)
      ∧ ∀ k m, s.sw.home.tracker = k :: m → k.is e.r.src e.r.txn l = true →
          t.sw.home.tracker = { k with count := min 4 (k.count + 1), status := st, lastFrame := s.sw.fr.frameNo } :: m
          ∧ (k.count < 3 → t.sw.home.tickets = s.sw.home.tickets)
          ∧ (3 ≤ k.count → s.sw.home.tickets.length < 16 → (∀ y ∈ s.sw.home.tickets, y.is e.r.src e.r.txn l = false) →
              t.sw.home.tickets = s.sw.home.tickets ++ [⟨e.r.src, e.r.txn, l, st⟩])

/-! ## Arrays and the eviction buffer (03, R75 to R79; 05, R121; 17, R382) -/

/-- A request that hits at RES reads the array at c12 and writes it at c20: a ReadOnce answers with the line at c40, a
WriteInvalidate or WritePartial with COMP at c24, an atomic as R270 states, and the new line waits for its commit (R75, R84,
R112, R264, R270). ARRAY_ACCESS_START takes the access that goes first on a free bank pair, occupies the pair for 2 clk, and
gives a line write its commit in the next clk; a locked-slot access that starts late raises LOCKED_LATE. The next clk commits
the write to its location and to no other (R75 to R78). -/
def Obligations.ArrayAccessesStartAndCommit : Prop :=
  (∀ (s : State) (x : Staged) (e : ReqEnt) (l loc : Nat), AtRes s x e l → HitsAt s l loc →
    (kindOf e.r.op = some .readOnce →
      ∃ t a, exec .slotDecide s = .next t ∧ ClkEnds s t (s.sw.setTag loc (withPref (withAge (s.sw.tag loc) 0) false))
        ∧ t.sw.pipe.staged = [] ∧ t.sw.pipe.wr = [] ∧ t.sw.pipe.acc = [a]
        ∧ a.pair = pairOf loc ∧ a.at_ = x.acc + 12 ∧ a.write = false
        ∧ AnswersWith t (x.acc + 40) (.dat ⟨e.r.txn, e.r.src, s.params.sliceRid, (s.sw.arr.stored loc).poison, 1, 0,
            (s.sw.arr.stored loc).data⟩)) ∧
    (∀ d, e.dat = some d → kindOf e.r.op = some .writeInv →
      ∃ t a, exec .slotDecide s = .next t
        ∧ ClkEnds s t (s.sw.setTag loc (withDirty (withPref (withAge (s.sw.tag loc) 0) false) true))
        ∧ t.sw.pipe.wr = [⟨x.id, loc, fullLine d, false, some x.id, none, none⟩] ∧ t.sw.pipe.acc = [a]
        ∧ a.pair = pairOf loc ∧ a.at_ = x.acc + 20 ∧ a.write = true
        ∧ AnswersWith t (x.acc + 24) (.rsp ⟨0xC1, e.r.txn, e.r.src, s.params.sliceRid, 0, 0⟩)) ∧
    (∀ d, e.dat = some d → kindOf e.r.op = some .writePart →
      ∃ t a b, exec .slotDecide s = .next t
        ∧ ClkEnds s t (s.sw.setTag loc (withDirty (withPref (withAge (s.sw.tag loc) 0) false) true))
        ∧ t.sw.pipe.wr = [⟨x.id, loc, mergeLine (s.sw.arr.stored loc) d (e.r.addr.toNat % 128) (sizeBytes e.r.size), false,
            some x.id, none, none⟩]
        ∧ t.sw.pipe.acc = [a, b] ∧ a.at_ = x.acc + 12 ∧ a.write = false ∧ b.at_ = x.acc + 20 ∧ b.write = true
        ∧ AnswersWith t (x.acc + 24) (.rsp ⟨0xC1, e.r.txn, e.r.src, s.params.sliceRid, 0, 0⟩)) ∧
    ∀ d op fetch, e.dat = some d → kindOf e.r.op = some (.atomic op fetch) →
      ∃ t y, exec .slotDecide s = .next t ∧ OpensTxn t y e l none ∧ y.ph = .resp
        ∧ ClkEnds s t { s.sw.setTag loc (withDirty (withPref (withAge (s.sw.tag loc) 0) false) true) with
            home := { s.sw.home with txns := [y] } }
        ∧ t.sw.pipe.wr = [⟨x.id, loc, (atomicLine (s.sw.arr.stored loc) e.r op d).1, false, some x.id, some y.idx, none⟩]
        ∧ (fetch = false → AnswersWith t (x.acc + 24) (.rsp ⟨0xC1, e.r.txn, e.r.src, s.params.sliceRid, 0, 0⟩))
        ∧ (fetch = true → AnswersWith t (x.acc + 40) (.dat ⟨e.r.txn, e.r.src, s.params.sliceRid,
            (atomicLine (s.sw.arr.stored loc) e.r op d).2.2.poison, 1, 0, (atomicLine (s.sw.arr.stored loc) e.r op d).2.2.data⟩))) ∧
  (∀ (s : State) (n : BitVec 5) (a : ArrAcc), s.awake = true → sget 0 s.sw.pipe.busy n.toNat ≤ s.sw.fr.clk →
    s.sw.nextAccess n.toNat = some a →
    a.pair = n.toNat ∧ a.at_ ≤ s.sw.fr.clk
      ∧ (∀ b ∈ s.sw.pipe.acc, b.pair = n.toNat → s.sw.blocked b = false → b.at_ ≤ s.sw.fr.clk → b.before a = false)
      ∧ ∃ t, exec (.arrayAccessStart n) s = .next t ∧ t.ao = s.ao ∧ sget 0 t.sw.pipe.busy n.toNat = s.sw.fr.clk + 2
        ∧ (a.at_ < s.sw.fr.clk → a.rank = 0 → (t.sw.src 5).fresh ≠ 0)
        ∧ (a.job = .plain → a.flight = none →
            t.sw.pipe.acc = dropFirst (fun x => x == a) s.sw.pipe.acc ∧ t.sw.arr = s.sw.arr ∧ t.sw.pipe.rsp = s.sw.pipe.rsp)
        ∧ ∀ w, a.job = .plain → a.flight = none → a.write = true → s.sw.pipe.wr = [w] → w.ord = a.ord → w.flight = none →
            pairOf w.loc = a.pair → w.at_ = none → t.sw.pipe.wr = [{ w with at_ := some (s.sw.fr.clk + 1) }]) ∧
  (∀ (s : State) (n : BitVec 5), s.sw.fr.clk < sget 0 s.sw.pipe.busy n.toNat ∨ s.sw.nextAccess n.toNat = none →
    exec (.arrayAccessStart n) s = .next s) ∧
  ∀ (s : Sw) (w : PendWr), s.pipe.wr = [w] → w.at_ = some s.fr.clk → w.dirty = false → s.arr.errs = [] →
    (w.flight ≠ none ∨ s.walk = none) → (tRetired (s.tag w.loc) && tValid (s.tag w.loc)) = false →
    s.commitDue.arr.stored w.loc = w.line ∧ s.commitDue.pipe.wr = [] ∧ s.commitDue.arr.tags = s.arr.tags
      ∧ (Arr.wf s.arr → Arr.wf s.commitDue.arr ∧ ∀ l, l ≠ w.loc → s.commitDue.arr.stored l = s.arr.stored l)

/-- At RES a NO_ALLOC write that misses goes to the eviction buffer at c21; CleanInvalidate clears a clean line and answers at c24, and
sends a dirty one to the eviction buffer and waits for its memory write (R112). EVICTION_BUFFER_ENTRY of the oldest waiting line that
may enter; VERIFY_READ of the oldest codeword that awaits it raises a background read on its bank pair (R77, R121, R382). -/
def Obligations.EvictionBufferAndVerifyReads : Prop :=
  (∀ (s : State) (x : Staged) (e : ReqEnt) (l : Nat) (d : Dat), AtRes s x e l → s.sw.findLine l = none → s.sw.findDir l = none →
    kindOf e.r.op = some .writeInv → e.r.noAlloc = true → e.dat = some d →
    ∃ t y w, exec .slotDecide s = .next t ∧ OpensTxn t y e l none ∧ y.ph = .resp
      ∧ ClkEnds s t { s.sw with home := { s.sw.home with txns := [y] }
                                cache := { s.sw.cache with evWait := [w], nextOrd := s.sw.cache.nextOrd + 1 } }
      ∧ w.line = l ∧ w.ln = fullLine d ∧ w.why = .noAlloc ∧ w.earliest = x.acc + 21 ∧ w.read = false
      ∧ AnswersWith t (x.acc + 24) (.rsp ⟨0xC1, e.r.txn, e.r.src, s.params.sliceRid, 0, 0⟩)) ∧
  (∀ (s : State) (x : Staged) (e : ReqEnt) (l loc : Nat), AtRes s x e l → HitsAt s l loc → kindOf e.r.op = some .cleanInv →
    (tDirty (s.sw.tag loc) = false → ∃ t, exec .slotDecide s = .next t
      ∧ ClkEnds s t (s.sw.setTag loc (clearedTag (s.sw.tag loc)))
      ∧ AnswersWith t (x.acc + 24) (.rsp ⟨0xC1, e.r.txn, e.r.src, s.params.sliceRid, 0, 0⟩)) ∧
    (tDirty (s.sw.tag loc) = true → ∃ t y w, exec .slotDecide s = .next t ∧ OpensTxn t y e l none ∧ y.ph = .memWr
      ∧ t.sw.tag loc = clearedTag (s.sw.tag loc) ∧ t.sw.cache.evWait = [w] ∧ w.line = tTag (s.sw.tag loc) * 65536 + loc / 16
      ∧ w.ln = { s.sw.arr.stored loc with hdr := 0 } ∧ w.why = .clean ∧ w.read = true ∧ t.sw.pipe.rsp = [])) ∧
  (∀ (s : State) (e : EvWait), s.awake = true → s.sw.cache.evWait.find? s.sw.mayEnter = some e → s.sw.home.txns = [] →
    ∃ t x, exec .evictionBufferEntry s = .next t ∧ t.ao = s.ao
      ∧ t.sw.cache = { s.sw.cache with evWait := dropFirst (fun y => y.ord == e.ord) s.sw.cache.evWait, ev := s.sw.cache.ev ++ [x] }
      ∧ x.ord = e.ord ∧ x.line = e.line ∧ x.ln = e.ln ∧ x.st = .waiting ∧ x.born = s.sw.fr.frameNo
      ∧ { t.sw with cache := s.sw.cache, pipe := s.sw.pipe, gth := s.sw.gth } = s.sw
      ∧ (e.why ≠ .noAlloc → t.sw.pipe = s.sw.pipe ∧ t.sw.gth = s.sw.gth)) ∧
  (∀ (s : State), 32 ≤ s.sw.cache.ev.length → (∀ e ∈ s.sw.cache.evWait, e.taken = false) → exec .evictionBufferEntry s = .next s) ∧
  ∀ (s : State) (st : Store) (cw : Nat) (l : List (Store × Nat)), s.awake = true → s.sw.domainDown = false →
    s.sw.arr.verify = (st, cw) :: l →
    ∃ t a, exec .verifyRead s = .next t ∧ t.ao = s.ao ∧ { t.sw with pipe := s.sw.pipe } = { s.sw with arr := { s.sw.arr with verify := l } }
      ∧ t.sw.pipe = { s.sw.pipe with acc := s.sw.pipe.acc ++ [a], nextSeq := s.sw.pipe.nextSeq + 1 }
      ∧ a.pair = cwPair st cw ∧ a.at_ = s.sw.fr.clk ∧ a.rank = 2 ∧ a.write = false ∧ a.job = .verify st cw

/-! ## Responses, snoops and the home's timers (03, R84, R107, R108; 07, R164, R176; 08, R190, R193, R204, R205) -/

/-- At RES a request for whose line the directory records other holders opens a transaction that snoops them: every one, to take
the line from them, or the owner alone for a read that shares it; an Upgrade by the one holder left is answered at c24, and the
owner's WriteBack is written (R112, R170, R174, R182). RESPONSE_SEND drives the response that goes first on its lane with a
credit, and with it the credit of a refused flit, and its transaction awaits COMP_ACK; without a credit nothing leaves.
SNOOP_SEND sends the next snoop of the oldest transaction that has one (R84, R108, R164, R176). -/
def Obligations.ResponsesAndSnoopsLeave : Prop :=
  (∀ (s : State) (x : Staged) (e : ReqEnt) (l k : Nat) (b : BitVec 128) (kd : ReqKind), AtRes s x e l → s.sw.findDir l = some k →
    b = withOpen (s.sw.dirAt k) false → kindOf e.r.op = some kd →
    (∀ hs op, (hs = dHolders s.sw.life.agents b (some e.r.src.toNat)
          ∧ (op = 0x32 ∧ (kd = .readUnique ∨ kd = .upgrade)
            ∨ op = 0x33 ∧ (kd = .writeInv ∨ kd = .writePart ∨ kd = .cleanInv ∨ kd.isAtomic = true)))
        ∨ (hs = [dOwner b] ∧ dOwned b = true ∧ dOwner b ≠ e.r.src.toNat ∧ op = 0x31 ∧ (kd = .readShared ∨ kd = .readOnce)) →
      hs ≠ [] → x.alloc.mode = 0 →
      ∃ t y, exec .slotDecide s = .next t ∧ OpensTxn t y e l (some k) ∧ y.ph = .snoop ∧ y.toSnoop = hs ∧ y.snpOp = op
        ∧ y.fwdOk = (kd == .readShared) ∧ t.sw.dirAt k = withOpen (s.sw.dirAt k) true ∧ t.sw.pipe.rsp = [] ∧ t.sw.pipe.wr = []) ∧
    (kd = .upgrade → dHolders s.sw.life.agents b (some e.r.src.toNat) = [] →
      (dBase b = 3 ∧ dOwner b = e.r.src.toNat ∨ dOwned b = false ∧ dCovers b e.r.src.toNat = true) →
      ∃ t y, exec .slotDecide s = .next t ∧ OpensTxn t y e l (some k) ∧ y.ph = .resp ∧ y.needAck = true
        ∧ ClkEnds s t { s.sw with home := { s.sw.home with txns := [y] }, arr := s.sw.arr.putDir k (withOpen (s.sw.dirAt k) true) }
        ∧ AnswersWith t (x.acc + 24) (.rsp ⟨0xC1, e.r.txn, e.r.src, s.params.sliceRid, 0, if dBase b = 3 then 3 else 2⟩)) ∧
    ∀ d loc, kd = .writeBack → e.dat = some d → s.sw.findCached l = some loc →
      (dOwned b = true → dOwner b = e.r.src.toNat →
        ∃ t y, exec .slotDecide s = .next t ∧ OpensTxn t y e l (some k) ∧ y.ph = .resp ∧ y.needAck = false
          ∧ t.sw.pipe.wr = [⟨x.id, loc, fullLine d, false, some x.id, some y.idx, none⟩]
          ∧ t.sw.tag loc = withDirty (withPref (withAge (s.sw.tag loc) 0) false) true
          ∧ AnswersWith t (x.acc + 24) (.rsp ⟨0xC1, e.r.txn, e.r.src, s.params.sliceRid, 0, 0⟩)) ∧
      (dOwned b = false ∨ dOwner b ≠ e.r.src.toNat →
        ∃ t, exec .slotDecide s = .next t ∧ ClkEnds s t s.sw ∧ t.sw.pipe.wr = []
          ∧ AnswersWith t (x.acc + 24) (.rsp ⟨0xC1, e.r.txn, e.r.src, s.params.sliceRid, 0, 0⟩))) ∧
  (∀ (s : State) (l : Lane) (r : Resp), s.awake = true → s.sw.port.free l = true → s.sw.hasOut l = true →
    (l = .io → s.sw.fastWaits = false) → s.sw.nextResp l = some r →
    r.lane = some l ∧ s.sw.ready r = true
      ∧ ∃ t, exec (.responseSend l) s = .next t ∧ t.sw.pipe.rsp = dropFirst (fun x => x.seq == r.seq) s.sw.pipe.rsp
        ∧ t.sw.port.credOut.get l = s.sw.port.credOut.get l - 1 ∧ (∀ k, k ≠ l → t.sw.port.credOut.get k = s.sw.port.credOut.get k)
        ∧ (∀ m, r.body = .rsp m → t.sw.port.rspOut = some (rspFlit m))
        ∧ (∀ m, r.body = .dat m → t.sw.port.datOut = some (datFlit m))
        ∧ (∀ m, r.body = .io m → t.sw.port.ioOut = some (ioFlit m))
        ∧ (r.txn = none → t.sw.home = s.sw.home)
        ∧ (∀ c, r.crd = some c → s.sw.port.crdPin.contains c = false →
            t.sw.port.crdPin = s.sw.port.crdPin ++ [c] ∧ t.sw.port.credIn.get c = s.sw.port.credIn.get c + 1)
        ∧ ∀ x, r.txn = some x.idx → s.sw.home.txns = [x] → x.ph = .resp → x.needAck = true → x.acked = false →
            t.sw.home.txns = [{ x with ph := .ack, ackFrom := some s.sw.fr.clk }]) ∧
  (∀ (s : State) (l : Lane), s.sw.hasOut l = false → exec (.responseSend l) s = .next s) ∧
  (∀ (s : State) (x : Txn) (a : Nat) (l : List Nat), s.awake = true → s.sw.domainDown = false → s.sw.port.free .snp = true →
    s.sw.hasOut .snp = true → s.sw.snooper = some x → x.toSnoop = a :: l → s.sw.txn x.idx = some x →
    ∃ t m, exec .snoopSend s = .next t ∧ t.ao = s.ao ∧ t.sw.port.snpOut = some (snpFlit m) ∧ m.op = x.snpOp
      ∧ m.txn = BitVec.ofNat 12 x.idx ∧ m.tgt = BitVec.ofNat 12 a ∧ m.laddr = s.sw.map.addr x.line ∧ m.fwdOk = x.fwdOk
      ∧ t.sw.port.credOut.snp = s.sw.port.credOut.snp - 1
      ∧ t.sw.txn x.idx = some { x with toSnoop := l, await := x.await ++ [(a, s.sw.fr.clk)] }) ∧
  ∀ (s : State), s.sw.port.credOut.snp = 0 → exec .snoopSend s = .next s

/-- RETRY_TRACKER_EXPIRY and COH_TICKET_LAPSE at the 4th frame boundary; SNOOP_TIMEOUT and COMP_ACK_TIMEOUT after T_SNP clk find
fatal causes 5 and 6; DOMAIN_DRAIN_END fences the slice once every drain response has left, or 4,096 clk after d: it cuts off
what is open, keeps IO in service, and isolates every output but ky_link_up and those of ky_io (R21, R64, R190, R193, R204 to
R206). -/
def Obligations.HomeTimers : Prop :=
  (∀ (s : State) (k : Track) (l : List Track), s.awake = true → s.sw.home.tracker = k :: l → k.lastFrame + 4 ≤ s.sw.fr.frameNo →
    exec (.retryTrackerExpiry k.slot) s = .next { s with sw := { s.sw with home := { s.sw.home with tracker := l } } }) ∧
  (∀ (s : State) (n : Nat), (∀ k ∈ s.sw.home.tracker, s.sw.fr.frameNo < k.lastFrame + 4) →
    exec (.retryTrackerExpiry n) s = .next s) ∧
  (∀ (s : State) (k : Ticket) (l : List Ticket), s.awake = true → s.sw.home.tickets = k :: l →
    s.sw.home.headFrame + 4 ≤ s.sw.fr.frameNo → l.head? ≠ some k →
    ∃ t, exec .cohTicketLapse s = .next t ∧ t.ao = s.ao ∧ Raised s.sw t.sw 13 (k.src.setWidth 64)
      ∧ { t.sw with evt := s.sw.evt, trc := s.sw.trc } = { s.sw with home := { s.sw.home with
          tickets := l, headFrame := s.sw.fr.frameNo
          tracker := dropFirst (fun x => x.src == k.src && x.txn == k.txn && x.line == k.line) s.sw.home.tracker } }) ∧
  (∀ (s : State) (i : BitVec 8) (x : Txn) (a : Nat × Nat) (l : List (Nat × Nat)), s.awake = true → s.sw.domainDown = false →
    s.sw.life.fatal = none → s.sw.txn i.toNat = some x → x.await = a :: l → a.2 + 2 ^ s.sw.life.snpExp ≤ s.sw.fr.clk →
    exec (.snoopTimeout i) s = .next { s with sw := { s.sw with life := { s.sw.life with
      fatal := some (5, BitVec.ofNat 17 a.1) } } }) ∧
  (∀ (s : State) (i : BitVec 8) (x : Txn) (c : Nat), s.awake = true → s.sw.domainDown = false → s.sw.life.fatal = none →
    s.sw.txn i.toNat = some x → x.ph = .ack → x.acked = false → x.ackFrom = some c → c + 2 ^ s.sw.life.snpExp ≤ s.sw.fr.clk →
    exec (.compAckTimeout i) s = .next { s with sw := { s.sw with life := { s.sw.life with
      fatal := some (6, x.r.src.setWidth 17) } } }) ∧
  ∀ (s : State) (d : Nat), s.awake = true → s.sw.life.drain = some d →
    ((∃ r ∈ s.sw.pipe.rsp, ∀ m, r.body ≠ .io m) → s.sw.fr.clk < d + 4096 → exec .domainDrainEnd s = .next s) ∧
    (s.sw.pipe.rsp = [] ∨ d + 4096 ≤ s.sw.fr.clk →
      ∃ t, exec .domainDrainEnd s = .next t ∧ t.ao = s.ao ∧ t.sw.life.st = .fenced ∧ t.sw.life.drain = none
        ∧ t.sw.port.isolate = .fence ∧ t.sw.home.txns = [] ∧ t.sw.q.req = [] ∧ t.sw.q.gth = [] ∧ t.sw.q.io = s.sw.q.io
        ∧ t.sw.pipe.wr = [] ∧ t.sw.mp.wait = [] ∧ t.sw.mp.out = s.sw.mp.out ∧ t.sw.cache.ev = s.sw.cache.ev
        ∧ (∀ r ∈ t.sw.pipe.rsp, ∃ m, r.body = .io m) ∧ t.sw.arr.data = s.sw.arr.data
        ∧ t.sw.pin.regions = s.sw.pin.regions ∧ (s.sw.walk = none → t.sw.walk = none)
        ∧ (∀ k, t.outputs k = { s.params.clamp with
            ioOutFlit := s.sw.port.ioOut.getD 0, linkUp := s.sw.port.linkUp
            outValid := (s.params.clamp.outValid &&& 62) ||| (if s.sw.port.ioOut.isSome then 1 else 0)
            inCrd := (s.params.clamp.inCrd &&& 30) ||| (if s.sw.port.crdPin.contains .io then 1 else 0) })
        ∧ (∀ n c, s.sw.life.quiescing = some n → (s.sw.mbx.ch n).run = some c →
            (t.sw.mbx.ch n).st = .done ∧ (t.sw.mbx.ch n).code = cFENCED))

/-! ## Outputs of the slice's own (09, R237 to R239; 11, R272) -/

/-- READOUT_WRITE first plans an entry from its closed lines: an INT or MINMAX result is line 0 of the context, a TREE16 result
the fold of the slots, an EXACT result rounds each accumulator once, and MEANVAR gives means and variances on two lines, written
at the address R237 states; a status record follows where STATUS_BASE is not 0 (R232, R237, R239 to R241). READOUT_WRITE of a
planned entry at its time: its next result write leaves as a WriteFull or WritePartial request with its data flit, or enters the
own queue when this slice is its home, and the entry counts it; RETRY_RESEND sends a request again 32 clk after its RETRY (R238,
R239, R272). -/
def Obligations.OwnRequestsLeave : Prop :=
  (∀ (s : State) (e : RoEnt) (l : List RoEnt) (a : BitVec 52) (f : Fmt), s.awake = true → s.sw.domainDown = false →
    s.sw.gth.ro = e :: l → e.issuedAll = false → e.planned = false → s.sw.roAt e ≤ s.sw.fr.clk →
    a = e.t.resultBase + BitVec.ofNat 52 (e.ctx * e.t.resultStride + s.params.sliceIndex.toNat * e.t.resultSliceStride) →
    f = outFmt e.t.outfmt → s.sw.lineWriting e.id a = true → e.t.fwd = false →
    ∃ t x, exec .readoutWrite s = .next t ∧ t.ao = s.ao ∧ { t.sw with gth := { t.sw.gth with ro := s.sw.gth.ro } } = s.sw
      ∧ (e.t.mode ≠ 0#2 ∨ e.t.outfmt ≠ 6#4 → t.sw.gth.ro = x :: l ∧ x.planned = true ∧ x.status = (e.t.statusBase != 0)
          ∧ x.lines = e.lines ∧ x.round = e.round ∧ x.issuedAll = false ∧ x.open_ = e.open_)
      ∧ (e.t.mode = 2#2 ∨ e.t.mode = 3#2 → x.todo = [.write a 128 (e.lines.getD 0 0) e.fl.poison])
      ∧ (e.t.mode = 1#2 → e.t.n * f.bytes = 128 → ∃ d, x.todo = [.write a 128 d e.fl.poison]
          ∧ ∀ k < e.t.n, bytesN d (f.bytes * k) f.bytes = (treeReadout f (tree16 (slots e.lines k))).1)
      ∧ (e.t.mode = 0#2 → e.t.outfmt.toNat ≤ 3 → ∃ d, x.todo = [.write a 128 d e.fl.poison]
          ∧ ∀ k < e.t.n, e.t.n * f.bytes ≤ 128 → bytesN d (f.bytes * k) f.bytes
              = (roundOnce (e.value 0 k < 0) (e.value 0 k).natAbs 1 (e.t.anchor - 63) f).1)
      ∧ (e.t.mode = 0#2 → e.t.outfmt = 4#4 ∨ e.t.outfmt = 5#4 → ∃ d v, x.todo
            = [.write a 128 d e.fl.poison, .write (a + 128) 128 v e.fl.poison]
          ∧ ∀ k < e.t.n, e.t.n * f.bytes ≤ 128 →
              bytesN d (f.bytes * k) f.bytes = (meanvar (e.value 0 k) (e.value (e.t.n / 8) k) (e.t.expect + 1) e.t.anchor e.t.sqanchor f).1
              ∧ bytesN v (f.bytes * k) f.bytes
                = (meanvar (e.value 0 k) (e.value (e.t.n / 8) k) (e.t.expect + 1) e.t.anchor e.t.sqanchor f).2.1)) ∧
  (∀ (s : State) (e : RoEnt) (l : List RoEnt) (a : BitVec 52) (n : Nat) (d : LineBits) (pz : Bool) (todo : List RoItem),
    s.awake = true → s.sw.domainDown = false → s.sw.gth.ro = e :: l → e.issuedAll = false → e.planned = true →
    s.sw.roAt e ≤ s.sw.fr.clk → e.todo = .write a n d pz :: todo → s.sw.lineWriting e.id a = false →
    s.sw.isHome s.params (laddrOf a) = false → s.sw.hasOut .req = true → s.sw.hasOut .dat = true →
    s.sw.port.reqOut = none → s.sw.port.datOut = none → s.sw.sends = true → s.sw.datDue = false →
    ∃ t q x, exec .readoutWrite s = .next t ∧ t.ao = s.ao ∧ q = e.writeReq s.params s.sw.freeSelf a n d pz
      ∧ q.r.addr = a ∧ q.r.op = (if n = 128 then 0x62 else 0x63) ∧ q.dat = some x ∧ x.data = d
      ∧ t.sw.port.reqOut = some (reqFlit q.r) ∧ t.sw.port.datOut = some (datFlit x)
      ∧ t.sw.port.credOut.req = s.sw.port.credOut.req - 1 ∧ t.sw.port.credOut.dat = s.sw.port.credOut.dat - 1
      ∧ t.sw.gth.ro = { e with todo := todo, issuedAll := todo.isEmpty && !e.status, open_ := e.open_ + 1 } :: l
      ∧ ((∀ y ∈ s.sw.gth.self, y.id ≠ s.sw.freeSelf) → t.sw.gth.self = s.sw.gth.self ++ [{ q with st := .waitAns }])) ∧
  (∀ (s : State) (e : RoEnt) (l : List RoEnt) (a : BitVec 52) (n : Nat) (d : LineBits) (pz : Bool) (todo : List RoItem),
    s.awake = true → s.sw.domainDown = false → s.sw.gth.ro = e :: l → e.issuedAll = false → e.planned = true →
    s.sw.roAt e ≤ s.sw.fr.clk → e.todo = .write a n d pz :: todo → s.sw.lineWriting e.id a = false →
    s.sw.isHome s.params (laddrOf a) = true → (∀ y ∈ s.sw.gth.self, y.id ≠ s.sw.freeSelf ∧ y.st ≠ .entering) →
    ∃ t q, exec .readoutWrite s = .next t ∧ t.ao = s.ao ∧ q = e.writeReq s.params s.sw.freeSelf a n d pz ∧ q.r.addr = a
      ∧ q.r.qos = e.t.resultClass ∧ t.sw.gth.self = s.sw.gth.self ++ [{ q with st := .entering }]
      ∧ t.sw.gth.ro = { e with todo := todo, issuedAll := todo.isEmpty && !e.status, open_ := e.open_ + 1 } :: l
      ∧ { t.sw with gth := s.sw.gth } = s.sw) ∧
  (∀ (s : State), (∀ e ∈ s.sw.gth.ro, e.issuedAll = true) ∨ (∃ e l, s.sw.gth.ro = e :: l ∧ e.issuedAll = false ∧ s.sw.fr.clk < s.sw.roAt e) →
    exec .readoutWrite s = .next s) ∧
  ∀ (s : State) (q : SelfReq) (l : List SelfReq) (c : Nat), s.awake = true → s.sw.domainDown = false → s.sw.gth.self = q :: l →
    q.st = .resendAt c → q.g = none → q.dat = none → s.sw.isHome s.params (laddrOf q.r.addr) = false →
    s.sw.hasOut .req = true → s.sw.port.reqOut = none → s.sw.sends = true → s.sw.walk = none →
    ∃ t, exec .retryResend s = .next t ∧ t.ao = s.ao
      ∧ (c ≤ s.sw.fr.clk → t.sw.port.reqOut = some (reqFlit q.r) ∧ t.sw.gth.self = { q with st := .waitAns } :: l
          ∧ t.sw.port.credOut.req = s.sw.port.credOut.req - 1)
      ∧ (s.sw.fr.clk < c → (∀ x ∈ l, ∀ k, x.st = .resendAt k → s.sw.fr.clk < k) → t = s)

/-! ## The memory port (02, R47 to R51; 13, R309 to R311; 18, R411) -/

/-- At RES a ReadShared or ReadUnique that misses, with an empty way and a free directory way, opens a transaction with an open
directory entry, takes the way and has its memory read decided (R112, R118, R170, R171, R179). MP_READ_ISSUE presents the chosen
read with a free tag and, when the controller is ready, transfers it and spends 128 of RB; MP_READ_BEAT keeps beat 0, completes
the line with beat 1, raises PROTOCOL for an unknown tag, discards what was outstanding at a reset, and stops on a beat out of
order, for which the spec gives no effect (R5, R48, R309, R311, R411). -/
def Obligations.MemoryReads : Prop :=
  (∀ (s : State) (x : Staged) (e : ReqEnt) (l loc k : Nat), AtRes s x e l → MissesInto s x l loc → s.sw.findDir l = none →
    s.sw.freeDir l = some k → e.r.noAlloc = false →
    kindOf e.r.op = some .readShared ∨ kindOf e.r.op = some .readUnique →
    ∃ t y r, exec .slotDecide s = .next t ∧ OpensTxn t y e l (some k) ∧ y.ph = .mem ∧ y.way = some loc ∧ y.needAck = true
      ∧ ClkEnds s t { s.sw with
          home := { s.sw.home with txns := [y] }, mp := { s.sw.mp with wait := s.sw.mp.wait ++ [r] }
          arr := (s.sw.arr.putDir k (BitVec.ofNat 128 (dirTag l ||| (4 <<< 28)))).putTag loc
            (tagWord (tagOf l) true false (if e.r.streaming = true then 3 else 1) false 0 0 false) }
      ∧ r.cause = .txn y.idx ∧ r.line = l ∧ r.cls = e.r.qos.toNat ∧ r.kind = 0 ∧ r.src = e.r.src
      ∧ r.df = (if e.r.dlValid = true then some e.df else none)
      ∧ t.sw.pipe.rsp = [] ∧ t.sw.pipe.wr = []) ∧
  (∀ (s : State) (ready : Bool) (r : MpRead) (ptr tag : Nat), s.awake = true → s.sw.life.st ≠ .fenced → s.sw.mp.presented = none →
    128 ≤ s.sw.mp.rb → s.sw.chooseRead = some (r, ptr) → s.sw.readTag = some tag →
    r ∈ s.sw.mp.wait ∧ tag < 288 ∧ (∀ o ∈ s.sw.mp.out, o.tag ≠ tag) ∧ (∀ o ∈ s.sw.mp.stale, o.1 ≠ tag) ∧ s.sw.evCopies r.line = []
      ∧ ∃ t, exec (.mpReadIssue ready) s = .next t ∧ t.ao = s.ao
        ∧ t.sw.mp.wait = dropFirst (fun x => x == r) s.sw.mp.wait
        ∧ (ready = true → t.sw.mp.out = s.sw.mp.out ++ [⟨tag, r, none⟩] ∧ t.sw.mp.presented = none ∧ t.sw.mp.rb = s.sw.mp.rb - 128
            ∧ t.sw.mp.rdPin = some (tag, s.sw.map.addr r.line))
        ∧ (ready = false → t.sw.mp.out = s.sw.mp.out ∧ t.sw.mp.presented = some (tag, r) ∧ t.sw.mp.rb = s.sw.mp.rb)
        ∧ { t.sw with mp := s.sw.mp, evt := s.sw.evt, pmc := s.sw.pmc, trc := s.sw.trc } = s.sw) ∧
  ∀ (s : State) (tag : BitVec 9) (beat : Bool) (data : BitVec 512) (par : BitVec 64) (poison : BitVec 4) (err : Bool),
    (s.sw.mp.isStale tag.toNat = true → exec (.mpReadBeat tag beat data par poison err) s
        = .next { s with sw := { s.sw with mp := s.sw.mp.staleBeat tag.toNat } }) ∧
    (s.sw.mp.isStale tag.toNat = false → s.awake = true →
      ((∀ o ∈ s.sw.mp.out, o.tag ≠ tag.toNat) → ∃ t, exec (.mpReadBeat tag beat data par poison err) s = .next t ∧ t.ao = s.ao
        ∧ Raised s.sw t.sw 8 (tag.setWidth 64) ∧ { t.sw with evt := s.sw.evt, trc := s.sw.trc } = s.sw) ∧
      (∀ o l, s.sw.mp.out = o :: l → o.tag = tag.toNat →
        (beat = false → o.beat0 = none → ∃ t, exec (.mpReadBeat tag beat data par poison err) s = .next t ∧ t.ao = s.ao
          ∧ t.sw.mp = { s.sw.mp with out := { o with beat0 := some (data, beatPoison data par poison err) } :: l }
          ∧ { t.sw with mp := s.sw.mp, evt := s.sw.evt, pmc := s.sw.pmc, trc := s.sw.trc, tel := s.sw.tel } = s.sw) ∧
        (beat = true → o.beat0 ≠ none → ∃ t, exec (.mpReadBeat tag beat data par poison err) s = .next t
          ∧ (s.sw.domainDown = true → t.sw.mp = { s.sw.mp with out := l })
          ∧ ∀ line k g, s.sw.domainDown = false → o.rd.cause = .bind line → s.sw.regionOf line = some (k, g) → Arr.wf s.sw.arr →
              t.sw.mp = { s.sw.mp with out := l }
              ∧ t.sw.tag (g.loc line) = tagWord (tagOf line) true false 0 (tRetired (s.sw.tag (g.loc line)))
                  (g.typ.toNat + 1) k false) ∧
        (beat = o.beat0.isNone → exec (.mpReadBeat tag beat data par poison err) s = .fault .unspecified)))

/-- MP_WRITE_ISSUE writes the next eviction-buffer line as two beats with a free tag and spends 128 of WB; MP_WRITE_COMPLETE
frees its entry, raises PROTOCOL for a tag that is not outstanding and discards one of before a reset; MP_THROTTLE_FILTER sets the
filtered level (R47, R49 to R51, R121, R309, R310, R411). -/
def Obligations.MemoryWrites : Prop :=
  (∀ (s : State) (e : EvEnt) (tag : Nat), s.awake = true → s.sw.life.st ≠ .fenced → s.sw.mp.wrHalf = none → 128 ≤ s.sw.mp.wb →
    s.sw.nextWrite = some e → s.sw.writeTag = some tag →
    e ∈ s.sw.cache.ev ∧ tag < 64 ∧ (∀ x ∈ s.sw.cache.ev, x.st = .written → x.tag ≠ tag)
      ∧ (∀ x ∈ s.sw.cache.ev, x.st = .written → x.line ≠ e.line)
      ∧ (∃ t, exec (.mpWriteIssue true true) s = .next t ∧ t.ao = s.ao ∧ t.sw.mp.wb = s.sw.mp.wb - 128 ∧ t.sw.mp.wrHalf = none
        ∧ t.sw.mp.wrPin = s.sw.mp.wrPin
            ++ [⟨s.sw.map.addr e.line, BitVec.ofNat 6 tag, false, fld e.ln.data 0 512,
                  BitVec.ofNat 64 (parityOf 64 (fld e.ln.data 0 512 : BitVec 512).toNat), fld e.ln.poison 0 4⟩,
                ⟨s.sw.map.addr e.line, BitVec.ofNat 6 tag, true, fld e.ln.data 512 512,
                  BitVec.ofNat 64 (parityOf 64 (fld e.ln.data 512 512 : BitVec 512).toNat), fld e.ln.poison 4 4⟩]
        ∧ (s.sw.cache.ev.Pairwise (fun a b => a.ord ≠ b.ord) → { e with st := .written, tag := tag } ∈ t.sw.cache.ev
            ∧ ∀ x ∈ s.sw.cache.ev, x.ord ≠ e.ord → x ∈ t.sw.cache.ev))
      ∧ exec (.mpWriteIssue false true) s = .next s) ∧
  (∀ (s : State) (tag : BitVec 6),
    (s.sw.mp.staleWr.contains tag.toNat = true → exec (.mpWriteComplete tag) s = .next { s with sw := { s.sw with mp := { s.sw.mp with
        staleWr := s.sw.mp.staleWr.filter fun t => t != tag.toNat } } }) ∧
    (s.sw.mp.staleWr.contains tag.toNat = false → s.awake = true →
      ((∀ e ∈ s.sw.cache.ev, e.st = .written → e.tag ≠ tag.toNat) → ∃ t, exec (.mpWriteComplete tag) s = .next t ∧ t.ao = s.ao
        ∧ Raised s.sw t.sw 8 (BitVec.ofNat 64 (tag.toNat + 512)) ∧ { t.sw with evt := s.sw.evt, trc := s.sw.trc } = s.sw) ∧
      ((∃ e ∈ s.sw.cache.ev, e.st = .written ∧ e.tag = tag.toNat) → ∃ t, exec (.mpWriteComplete tag) s = .next t ∧ t.ao = s.ao
        ∧ (s.sw.home.txns = [] → { t.sw with cache := s.sw.cache } = s.sw ∧ t.sw.cache = { s.sw.cache with
            ev := dropFirst (fun e => e.st == .written && e.tag == tag.toNat) s.sw.cache.ev })))) ∧
  ∀ (s : State) (level : BitVec 2), s.awake = true →
    exec (.mpThrottleFilter level) s = .next { s with sw := { s.sw with mp := { s.sw.mp with filtered := level } } }

/-! ## Addresses and placement (01, R13; 03, R66 to R68) -/

/-- The line-group number is the XOR of the five fields of R13. -/
def Obligations.LineGroupIsTheFold : Prop :=
  ∀ a : BitVec 52, lineGroup (laddrOf a) = fldN a 7 10 ^^^ fldN a 17 10 ^^^ fldN a 27 10 ^^^ fldN a 37 10 ^^^ fldN a 47 5

/-- Under a map that gives the slice the line groups `mine` in ascending order, the local index of a line and the address that a
local index recovers are inverse to each other, and any 32 consecutive local indices fall in 32 different bank pairs (R66 to
R68). -/
def Obligations.LocalIndicesAndAddressesCorrespond : Prop :=
  (∀ (m : MapSt), m.mine.Pairwise (· < ·) → (∀ g ∈ m.mine, g < 1024) →
    (∀ l, l < 2 ^ 35 * m.k → m.index (m.addr l) = l ∧ lineGroup (m.addr l) ∈ m.mine) ∧
    ∀ x : BitVec 45, lineGroup x ∈ m.mine → m.addr (m.index x) = x ∧ m.index x < 2 ^ 35 * m.k) ∧
  ∀ l i j v w : Nat, i < 32 → j < 32 → v < 16 → w < 16 →
    pairOf (locOf (setOf (l + i)) v) = pairOf (locOf (setOf (l + j)) w) → i = j

/-! ## The invariant of the always-on region (15, R357, R360, R361; 18, R406, R414, R419, R423, R425) -/

/-- Every step keeps the invariant of the always-on region. -/
def Obligations.AlwaysOnInvariantIsKept : Prop :=
  ∀ (s t : State), AlwaysOnLegal s.ao → step s = .next t → AlwaysOnLegal t.ao

/-- The invariant holds right after reset. -/
def Obligations.AlwaysOnInvariantAtReset : Prop := AlwaysOnLegal State.reset.ao
end

