-- ==== Sys2Proof/Laws/Sparse.lean ====
section
/-! SUPPORT. Sparse tables: a read after a write, and the canonical form that every write keeps. -/
namespace Sys2Proof.Machine

/-- The value put at a key is read there. -/
theorem sget_sput {α} (d : α) (m : Sparse α) (k : Nat) (v : α) : sget d (sput m k v) k = v := by
  induction m with
  | nil => simp [sput, sget]
  | cons e m ih =>
    obtain ⟨k', v'⟩ := e
    unfold sput
    split
    · simp [sget]
    · split
      · simp [sget]
      · simp only [sget, ih]; rw [if_neg (by omega), if_neg (by omega)]

/-- A deleted key reads the default. -/
theorem sget_sdel {α} (d : α) (m : Sparse α) (k : Nat) : sget d (sdel m k) k = d := by
  induction m with
  | nil => simp [sdel, sget]
  | cons e m ih =>
    obtain ⟨k', v'⟩ := e
    by_cases h : k' = k
    · simpa [sdel, h] using ih
    · simp only [sdel, List.filter_cons, h, ne_eq, not_false_eq_true, decide_true, if_true, sget]
      rw [if_neg (by omega)]; split
      · rfl
      · exact ih

/-- A written key reads the value written. -/
theorem sget_sset {α} [DecidableEq α] (d : α) (m : Sparse α) (k : Nat) (v : α) : sget d (sset d m k v) k = v := by
  unfold sset; split
  · rename_i h; rw [sget_sdel, h]
  · exact sget_sput ..

/-- A key below every listed key reads the default. -/
theorem sget_lt {α} (d : α) (m : Sparse α) (k : Nat) (h : ∀ e ∈ m, k < e.1) : sget d m k = d := by
  cases m with
  | nil => rfl
  | cons e m => obtain ⟨a, b⟩ := e; have := h _ (List.mem_cons_self ..); simp only [sget]; rw [if_neg (by simp at this; omega), if_pos this]

/-- A put leaves every other key. -/
theorem sget_sput_ne {α} (d : α) (m : Sparse α) (k j : Nat) (v : α) (hj : j ≠ k) :
    sget d (sput m k v) j = sget d m j := by
  induction m with
  | nil => simp [sput, sget]; intro h; omega
  | cons e m ih =>
    obtain ⟨k', v'⟩ := e
    unfold sput
    split
    · simp only [sget]; rw [if_neg hj]
      by_cases h1 : j < k
      · rw [if_pos h1, if_neg (by omega), if_pos (by omega)]
      · rw [if_neg h1]
    · split
      · subst_vars; simp only [sget]; rw [if_neg hj, if_neg hj]
      · simp only [sget, ih]

/-- A deletion leaves every other key. -/
theorem sget_sdel_ne {α} (d : α) (m : Sparse α) (k j : Nat) (hw : m.Pairwise (fun a b => a.1 < b.1)) (hj : j ≠ k) :
    sget d (sdel m k) j = sget d m j := by
  induction m with
  | nil => rfl
  | cons e m ih =>
    obtain ⟨k', v'⟩ := e
    rw [List.pairwise_cons] at hw
    by_cases h : k' = k
    · have : sdel ((k', v') :: m) k = sdel m k := by simp [sdel, h]
      rw [this, ih hw.2]; subst h
      simp only [sget]; rw [if_neg hj]; split
      · exact sget_lt _ _ _ (fun e he => by have := hw.1 e he; simp at this; omega)
      · rfl
    · have : sdel ((k', v') :: m) k = (k', v') :: sdel m k := by simp [sdel, h]
      rw [this]; simp only [sget, ih hw.2]

/-- A write leaves every other key. -/
theorem sget_sset_ne {α} [DecidableEq α] (d : α) (m : Sparse α) (k j : Nat) (v : α) (hw : Sparse.wf d m) (hj : j ≠ k) :
    sget d (sset d m k v) j = sget d m j := by
  unfold sset; split
  · exact sget_sdel_ne _ _ _ _ hw.1 hj
  · exact sget_sput_ne _ _ _ _ _ hj

/-- Keys of a table after a put: those before, and the key. -/
theorem mem_sput {α} (m : Sparse α) (k : Nat) (v : α) (e : Nat × α) (h : e ∈ sput m k v) : e = (k, v) ∨ e ∈ m := by
  induction m with
  | nil => simpa [sput] using h
  | cons x m ih =>
    obtain ⟨k', v'⟩ := x
    unfold sput at h
    split at h
    · simpa using h
    · split at h
      · rcases List.mem_cons.1 h with h | h
        · exact .inl h
        · exact .inr (List.mem_cons_of_mem _ h)
      · rcases List.mem_cons.1 h with h | h
        · exact .inr (h ▸ List.mem_cons_self ..)
        · exact (ih h).imp id (List.mem_cons_of_mem _)

/-- A put keeps the keys rising. -/
theorem pairwise_sput {α} (m : Sparse α) (k : Nat) (v : α) (hw : m.Pairwise (fun a b => a.1 < b.1)) :
    (sput m k v).Pairwise (fun a b => a.1 < b.1) := by
  induction m with
  | nil => simp [sput]
  | cons x m ih =>
    obtain ⟨k', v'⟩ := x
    rw [List.pairwise_cons] at hw
    unfold sput
    split
    · rename_i h
      refine List.pairwise_cons.2 ⟨?_, List.pairwise_cons.2 hw⟩
      intro e he
      rcases List.mem_cons.1 he with rfl | he
      · exact h
      · exact Nat.lt_trans h (hw.1 e he)
    · split
      · subst_vars; exact List.pairwise_cons.2 hw
      · refine List.pairwise_cons.2 ⟨?_, ih hw.2⟩
        intro e he
        rcases mem_sput m k v e he with rfl | he
        · show k' < k; omega
        · exact hw.1 e he

/-- A write keeps the canonical form. -/
theorem sset_wf {α} [DecidableEq α] (d : α) (m : Sparse α) (k : Nat) (v : α) (hw : Sparse.wf d m) : Sparse.wf d (sset d m k v) := by
  unfold sset; split
  · exact ⟨hw.1.filter _, fun e he => hw.2 e (List.mem_filter.1 he).1⟩
  · rename_i hv
    refine ⟨pairwise_sput m k v hw.1, fun e he => ?_⟩
    rcases mem_sput m k v e he with rfl | he
    · exact hv
    · exact hw.2 e he

/-- What a filter leaves keeps the canonical form. -/
theorem filter_wf {α} (d : α) (m : Sparse α) (p : Nat × α → Bool) (hw : Sparse.wf d m) : Sparse.wf d (m.filter p) :=
  ⟨hw.1.filter _, fun e he => hw.2 e (List.mem_filter.1 he).1⟩

/-- A table filtered by key reads as before at a key that stays, and the default at one that goes. -/
theorem sget_filter {α} (d : α) (m : Sparse α) (p : Nat → Bool) (k : Nat) (hw : m.Pairwise (fun a b => a.1 < b.1)) :
    sget d (m.filter fun e => p e.1) k = if p k then sget d m k else d := by
  induction m with
  | nil => simp [sget]
  | cons x m ih =>
    obtain ⟨a, v⟩ := x
    rw [List.pairwise_cons] at hw
    have below : k ≤ a → sget d m k = d := fun h => sget_lt d m k fun e he => Nat.lt_of_le_of_lt h (hw.1 e he)
    by_cases hp : p a
    · simp only [List.filter_cons, hp, if_true, sget, ih hw.2]
      by_cases h1 : k = a
      · subst h1; simp [hp]
      · by_cases h2 : k < a
        · simp [h1, h2]
        · simp [h1, h2]
    · simp only [List.filter_cons, hp, Bool.false_eq_true, if_false, sget, ih hw.2]
      by_cases h1 : k = a
      · subst h1; simp [hp]
      · by_cases h2 : k < a
        · simp [h1, h2, below (Nat.le_of_lt h2)]
        · simp [h1, h2]

end Sys2Proof.Machine
end

