-- ==== Sys2Proof/Laws/Ops.lean ====
section
/-! SUPPORT. What the shared operations can do: commands on a working region, events, counters, trace records, the completion
of a mailbox command, and the frame of a command row. -/
namespace Sys2Proof.Machine

/-- A command of a working region has its effect. -/
theorem State.run_awake {s : State} (h : s.awake = true) (f : Params → AlwaysOn → Sw → Sw) :
    s.run f = { s with sw := f s.params s.ao s.sw } := by simp [State.run, h]

/-- A command of a region that is held has none. -/
theorem State.run_held {s : State} (h : s.awake = false) (f : Params → AlwaysOn → Sw → Sw) : s.run f = s := by
  simp [State.run, h]

/-- A command of both regions has its effect while the switched region works. -/
theorem State.runAo_awake {s : State} (h : s.awake = true) (f : Params → AlwaysOn → Sw → AlwaysOn × Sw) :
    s.runAo f = { s with ao := (f s.params s.ao s.sw).1, sw := (f s.params s.ao s.sw).2 } := by simp [State.runAo, h]

/-- It has none while the region is held. -/
theorem State.runAo_held {s : State} (h : s.awake = false) (f : Params → AlwaysOn → Sw → AlwaysOn × Sw) : s.runAo f = s := by
  simp [State.runAo, h]

/-- A command changes neither the queue nor a parameter, whichever region it acts on. -/
theorem State.run_rest (s : State) (f : Params → AlwaysOn → Sw → Sw) :
    (s.run f).pending = s.pending ∧ (s.run f).params = s.params ∧ (s.run f).ao = s.ao := by
  unfold State.run; split <;> exact ⟨rfl, rfl, rfl⟩

/-- The same for a command of both regions. -/
theorem State.runAo_rest (s : State) (f : Params → AlwaysOn → Sw → AlwaysOn × Sw) :
    (s.runAo f).pending = s.pending ∧ (s.runAo f).params = s.params := by unfold State.runAo; split <;> exact ⟨rfl, rfl⟩

/-- A trace record changes the trace unit alone. -/
theorem Sw.traceRec_only (s : Sw) (a : Nat) (b : BitVec 64) (c : Nat) : ∃ x, s.traceRec a b c = { s with trc := x } := by
  unfold Sw.traceRec; split <;> exact ⟨_, rfl⟩

/-- An updated event source is read back. -/
theorem Sw.onSrc_src (s : Sw) (id : Nat) (f : EvtSrc → EvtSrc) : (s.onSrc id f).src id = f (s.src id) := sget_sset ..

/-- Another event source is as it was. -/
theorem Sw.onSrc_src_ne (s : Sw) (id : Nat) (f : EvtSrc → EvtSrc) (k : Nat) (hw : Sparse.wf EvtSrc.reset s.evt.src) (h : k ≠ id) :
    (s.onSrc id f).src k = s.src k := sget_sset_ne _ _ _ _ _ hw h

/-- An updated bank is read back. -/
theorem Sw.onBank_bankAt (s : Sw) (n : Nat) (f : BankSt → BankSt) : (s.onBank n f).evt.bankAt n = f (s.evt.bankAt n) := sget_sset ..

/-- An event changes the event unit and the trace unit alone. -/
theorem Sw.raise_only (s : Sw) (id i : Nat) :
    ∃ x, s.raise id i = { s.onSrc id (fun e => e.occur (BitVec.ofNat 64 i)) with trc := x } := by
  unfold Sw.raise; dsimp only
  obtain ⟨x, h⟩ := Sw.traceRec_only (s.onSrc id fun e => e.occur (BitVec.ofNat 64 i)) 4 s.fr.gtime
    ((id <<< 52) ||| ((BitVec.ofNat 64 i).toNat <<< 61))
  exact ⟨x, h⟩

/-- The source of an event has its occurrence. -/
theorem Sw.raise_src (s : Sw) (id i : Nat) : (s.raise id i).src id = (s.src id).occur (BitVec.ofNat 64 i) := by
  obtain ⟨x, h⟩ := Sw.raise_only s id i
  rw [h]; exact Sw.onSrc_src s id fun e => e.occur (BitVec.ofNat 64 i)

/-- An occurrence of this clk is noted until its end. -/
theorem EvtSrc.occur_fresh (e : EvtSrc) (i : BitVec 64) : (e.occur i).fresh = e.fresh + 1 := rfl

/-- At the end of the clk a source with an occurrence is pending. -/
theorem EvtSrc.endClk_pend (e : EvtSrc) (h : e.fresh ≠ 0) : e.endClk.pend = true := by simp [EvtSrc.endClk, h]

/-- Another source than the one an event raised is as it was. -/
theorem Sw.raise_src_ne (s : Sw) (id i k : Nat) (hk : k ≠ id) : (s.raise id i).src k = s.src k := by
  obtain ⟨x, h⟩ := Sw.raise_only s id i
  rw [h]
  show sget EvtSrc.reset (sset EvtSrc.reset s.evt.src id _) k = _
  unfold sset
  split
  · rename_i h2
    have h3 := congrArg EvtSrc.fresh h2
    rw [EvtSrc.occur_fresh] at h3
    exact absurd h3 (Nat.succ_ne_zero _)
  · exact sget_sput_ne _ _ _ _ _ hk

/-- A source that an event raised has an occurrence. -/
theorem Sw.raise_fresh (s : Sw) (id i : Nat) : ((s.raise id i).src id).fresh = (s.src id).fresh + 1 := by
  rw [Sw.raise_src]; rfl

/-- A count changes the counters, the event unit and the trace unit alone. -/
theorem Sw.countIf_only (s : Sw) (b c n : Nat) (w : Filt → Bool) :
    ∃ p e x, s.countIf b c n w = { s with pmc := p, evt := e, trc := x } := by
  unfold Sw.countIf; dsimp only
  split
  · split
    · obtain ⟨x, h⟩ := Sw.raise_only ((s.onPmc fun p => { p with
          cnt := sset 0 p.cnt (8 * b + c) (BitVec.ofNat 48 ((sget 0 s.pmc.cnt (8 * b + c)).toNat + n))
          now := sset 0 p.now (8 * b + c) (sget 0 p.now (8 * b + c) + n) }).onPmc
        fun p => { p with
          cfg := sset 0 p.cfg (8 * b + c) (sget 0 p.cfg (8 * b + c) ||| 8#4), wrapped := (8 * b + c) :: p.wrapped }) 23 (b + c * 16)
      exact ⟨_, _, x, h⟩
    · exact ⟨_, s.evt, s.trc, rfl⟩
  · exact ⟨s.pmc, s.evt, s.trc, rfl⟩

/-- A count of a request changes the same. -/
theorem Sw.count_only (s : Sw) (b c n : Nat) (w : Option Who) :
    ∃ p e x, s.count b c n w = { s with pmc := p, evt := e, trc := x } := Sw.countIf_only ..

/-- A count leaves an occurrence noted. -/
theorem Sw.count_fresh (s : Sw) (b c n : Nat) (w : Option Who) (id : Nat) (h : (s.src id).fresh ≠ 0) :
    ((s.count b c n w).src id).fresh ≠ 0 := by
  unfold Sw.count Sw.countIf; dsimp only
  split
  · split
    · by_cases hk : id = 23
      · subst hk; rw [Sw.raise_fresh]; exact Nat.succ_ne_zero _
      · rw [Sw.raise_src_ne _ _ _ _ hk]; exact h
    · exact h
  · exact h

/-- A counter that is not enabled counts nothing. -/
theorem Sw.count_off (s : Sw) (b c n : Nat) (w : Option Who) (h : bitAt (sget 0 s.pmc.cfg (8 * b + c)) 0 = false) :
    s.count b c n w = s := by
  unfold Sw.count Sw.countIf; dsimp only; rw [h]; rfl

/-- An answer without data adds one response. -/
theorem Sw.answer_only (s : Sw) (p : Params) (a : Ans) (op status : BitVec 8) (state : BitVec 3) :
    ∃ r, s.answer p a op status state = { s with pipe := { s.pipe with rsp := s.pipe.rsp ++ [r], nextSeq := s.pipe.nextSeq + 1 } } :=
  ⟨_, rfl⟩

/-- The answer to an IO access adds one response. -/
theorem Sw.answerIo_only (s : Sw) (p : Params) (f : Io) (due : Nat) (status : BitVec 8) (payload : BitVec 512)
    (apt : Option (BitVec 12 × Nat)) :
    s.answerIo p f due status payload apt = { s with pipe := { s.pipe with
      rsp := s.pipe.rsp ++ [⟨s.pipe.nextSeq, due, .io (ioAnswer p f status payload), none, none, apt, false, 0, false, none⟩]
      nextSeq := s.pipe.nextSeq + 1 } } := rfl

/-! ## Lines on their way -/

/-- Data that no parity failure of a datapath register touches leaves it as it is. -/
theorem Sw.carry_clean (s : Sw) (id : Nat) (ln : Line) (h : s.pipe.parity.filter (fun e => e.1 == id) = []) : s.carry id ln = (s, ln) := by
  simp [Sw.carry, h]

/-- Carried data keeps its bytes and its header; only POISON can be added (R384). -/
theorem Sw.carry_line (s : Sw) (id : Nat) (ln : Line) :
    ∃ pz, (s.carry id ln).2 = { ln with poison := ln.poison ||| pz } := by
  unfold Sw.carry; dsimp only
  split
  · exact ⟨0, by simp⟩
  · exact ⟨_, rfl⟩

/-- Carrying data changes the pipeline's notes of failed bytes and what counts them alone. -/
theorem Sw.carry_only (s : Sw) (id : Nat) (ln : Line) :
    ∃ q t p e x, (s.carry id ln).1 = { s with pipe := q, tel := t, pmc := p, evt := e, trc := x } := by
  unfold Sw.carry; dsimp only
  split
  · exact ⟨s.pipe, s.tel, s.pmc, s.evt, s.trc, rfl⟩
  · unfold Sw.telParity
    obtain ⟨p, e, x, h⟩ := Sw.count_only ((((s.onPipe fun p => { p with parity := p.parity.filter fun e => e.1 != id })).onTel fun t =>
      { t with live := { t.live with parity := t.live.parity + BitVec.ofNat 32 (s.pipe.parity.filter fun e => e.1 == id).length } }))
      9 7 (s.pipe.parity.filter fun e => e.1 == id).length none
    exact ⟨_, _, p, e, x, h⟩

/-- A completed local write is noted at the readout entry it belongs to, and nowhere else (R239). -/
theorem Sw.localDone_only (s : Sw) (flight : Option Nat) : ∃ g, s.localDone flight = { s with gth := g } := by
  unfold Sw.localDone
  split
  · exact ⟨s.gth, rfl⟩
  · exact ⟨_, rfl⟩

/-- A way that is released changes the transactions alone (R119). -/
theorem Sw.releaseWay_only (s : Sw) (txn : Option Nat) (loc : Nat) : ∃ h, s.releaseWay txn loc = { s with home := h } := by
  unfold Sw.releaseWay
  cases txn with
  | none => exact ⟨s.home, rfl⟩
  | some i => exact ⟨_, rfl⟩

/-! ## Channels and completion -/

/-- An updated channel is read back. -/
theorem Mbx.onCh_ch (m : Mbx) (n : BitVec 2) (f : Chan → Chan) : (m.onCh n f).ch n = f (m.ch n) := by
  unfold Mbx.onCh Mbx.ch; split <;> simp_all

/-- Another channel is as it was. -/
theorem Mbx.onCh_ch_ne (m : Mbx) (n k : BitVec 2) (f : Chan → Chan) (h : k ≠ n) : (m.onCh n f).ch k = m.ch k := by
  have : ∀ k n : BitVec 2, k ≠ n → (m.onCh n f).ch k = m.ch k := by
    intro k n h
    have hk := k.isLt; have hn := n.isLt
    have : k.toNat ≠ n.toNat := fun e => h (BitVec.eq_of_toNat_eq e)
    unfold Mbx.onCh Mbx.ch
    rcases h1 : n.toNat with _ | _ | _ | _ | x <;> rcases h2 : k.toNat with _ | _ | _ | _ | y <;> simp_all <;> omega
  exact this k n h

/-- The channel taken last is as it was. -/
theorem Mbx.onCh_last (m : Mbx) (n : BitVec 2) (f : Chan → Chan) : (m.onCh n f).last = m.last := by
  unfold Mbx.onCh; split <;> rfl

/-- Completing a command: the channel, MBX_DONE, and nothing beside the mailboxes, the event unit, the counters and the trace
unit. -/
theorem Sw.finishAs_only (s : Sw) (n : BitVec 2) (op tag : BitVec 16) (r : Reply) :
    ∃ p e x, s.finishAs n op tag r = { s with
        mbx := s.mbx.onCh n fun c => { c with
          rsp := responseBuf op tag (s.mbx.ch n).seq r, st := .done, code := r.status, run := none, rereads := 0, rereadAt := none }
        pmc := p, evt := e, trc := x } := by
  unfold Sw.finishAs; dsimp only
  obtain ⟨x, h⟩ := Sw.raise_only (s.onCh n fun c => { c with
    rsp := responseBuf op tag (s.mbx.ch n).seq r, st := .done, code := r.status, run := none, rereads := 0, rereadAt := none })
    (25 + n.toNat) (s.mbx.ch n).seq.toNat
  rw [h]
  obtain ⟨p, e, y, h2⟩ := Sw.count_only { (s.onCh n fun c => { c with
    rsp := responseBuf op tag (s.mbx.ch n).seq r, st := .done, code := r.status, run := none, rereads := 0
    rereadAt := none }).onSrc (25 + n.toNat) (fun e => e.occur (BitVec.ofNat 64 (s.mbx.ch n).seq.toNat)) with trc := x }
    10 (if r.status == cOK then 1 else 2) 1 none
  rw [h2]
  exact ⟨p, e, y, rfl⟩

/-- A number taken from a pool is one of the pool and not in use. -/
theorem Sw.freeNumber_unused {s : Sw} {pool n i : Nat} {used : Nat → Bool} (h : s.freeNumber pool n used = some i) :
    i < n ∧ used i = false := by
  have := List.mem_of_getElem? h
  simpa [List.mem_filter, List.mem_range] using this

/-- Where a number of the pool is not in use, one is taken. -/
theorem Sw.freeNumber_exists {s : Sw} {n i : Nat} {used : Nat → Bool} (pool : Nat) (hn : i < n) (hu : used i = false) :
    ∃ k, s.freeNumber pool n used = some k := by
  have hm : i ∈ (List.range n).filter fun i => !used i := by simp [hn, hu]
  have hl := List.length_pos_of_mem hm
  exact ⟨_, List.getElem?_eq_getElem (Nat.mod_lt _ hl)⟩

end Sys2Proof.Machine
end

