-- ==== Sys2Proof/Laws/Commands.lean ====
section
/-! SUPPORT. A mailbox command whose row runs: it is refused by its own checks, completes, or runs on. -/
namespace Sys2Proof
open Machine

/-- Completing a command after a change that leaves its channel as it was. -/
theorem finish_completed {s t : State} {n : BitVec 2} {c : RunCmd} {r : Reply} {sw : Sw}
    (hr : (s.sw.mbx.ch n).run = some c) (hm : sw.mbx = s.sw.mbx) (ha : t.ao = s.ao) (ht : t.sw = sw.finish n r) :
    Completed s t n c r sw := by
  have h1 : (sw.mbx.ch n).run = some c := by rw [hm]; exact hr
  have hf : t.sw = sw.finishAs n c.op c.tag r := by rw [ht]; unfold Sw.finish; rw [h1]
  obtain ⟨p, e, x, h⟩ := Sw.finishAs_only sw n c.op c.tag r
  refine ⟨ha, ?_, ?_, ?_, ?_, ?_⟩
  · rw [hf, h]; exact (Mbx.onCh_ch _ _ _).trans (by rw [hm])
  · intro m hmn; rw [hf, h]; exact (Mbx.onCh_ch_ne _ _ _ _ hmn).trans (by rw [hm])
  · rw [hf, h]; exact (Mbx.onCh_last _ _ _).trans (by rw [hm])
  · rw [hf]; exact Sw.count_fresh _ _ _ _ _ _ (by rw [Sw.raise_fresh]; exact Nat.succ_ne_zero _)
  · rw [hf, h]

variable {s : State} {n : BitVec 2} {op : Nat} {c : RunCmd} {check : Params → AlwaysOn → Sw → BitVec 416 → Option Reply}
  {act : Params → AlwaysOn → Sw → BitVec 416 → AlwaysOn × Sw × Option Reply} {sw : Sw} {ao : AlwaysOn} {r : Reply}

/-- A command that its own checks refuse completes with their reply. -/
theorem command_refused (h : CommandReady s n op c) (hc : check s.params s.ao s.sw c.pay = some r) :
    Completed s (s.command n op check act) n c r s.sw := by
  obtain ⟨ha, hl, hr, ho, hs, x, hx, hk⟩ := h
  unfold State.command
  rw [State.runAo_awake ha]
  refine finish_completed hr rfl ?_ ?_ <;> simp [hr, hx, ho, hs, hl, hk, hc]

/-- A command that completes in its row. -/
theorem command_completes (h : CommandReady s n op c) (hc : check s.params s.ao s.sw c.pay = none)
    (he : act s.params s.ao s.sw c.pay = (ao, sw, some r)) (hm : sw.mbx = s.sw.mbx) :
    (s.command n op check act).ao = ao
      ∧ Completed s { s.command n op check act with ao := s.ao } n c r sw := by
  obtain ⟨ha, hl, hr, ho, hs, x, hx, hk⟩ := h
  unfold State.command
  rw [State.runAo_awake ha]
  refine ⟨?_, finish_completed hr hm rfl ?_⟩ <;> simp [hr, hx, ho, hs, hl, hk, hc, he]

/-- A command that completes in its row and leaves the always-on region. -/
theorem command_completes' (h : CommandReady s n op c) (hc : check s.params s.ao s.sw c.pay = none)
    (he : act s.params s.ao s.sw c.pay = (s.ao, sw, some r)) (hm : sw.mbx = s.sw.mbx) :
    Completed s (s.command n op check act) n c r sw := by
  obtain ⟨h1, h2⟩ := command_completes h hc he hm
  exact ⟨h1, h2.2⟩

/-- A command that runs on. -/
theorem command_runs (h : CommandReady s n op c) (hc : check s.params s.ao s.sw c.pay = none)
    (he : act s.params s.ao s.sw c.pay = (s.ao, sw, none)) (hm : sw.mbx = s.sw.mbx) :
    RunsOn s (s.command n op check act) n c sw := by
  obtain ⟨ha, hl, hr, ho, hs, x, hx, hk⟩ := h
  unfold State.command
  rw [State.runAo_awake ha]
  simp only [hr, hx, ho, hs, hl, hk, hc, he]
  refine ⟨?_, ?_, ?_, ?_, ?_⟩
  · simp
  · simp; exact (Mbx.onCh_ch _ _ _).trans (by rw [hm]; simp [hr])
  · intro m hmn; simp; exact (Mbx.onCh_ch_ne _ _ _ _ hmn).trans (by rw [hm])
  · simp; exact (Mbx.onCh_last _ _ _).trans (by rw [hm])
  · simp; rfl

end Sys2Proof
end

