-- ==== Sys2Proof/Laws/Memory.lean ====
section
/-! SUPPORT. The byte memory and the store: every operation keeps the canonical form, and reset has it. -/
namespace Sys2Proof.Machine

/-- Writing bytes keeps the canonical form. -/
theorem Memory.writeN_wf (m : List Host.Cell) (a n v : Nat) (hw : Memory.wf m) : Memory.wf (Memory.writeN m a n v) := by
  have hmid : ∀ e ∈ ((List.range n).map fun i => (a + i, BitVec.ofNat 8 (v >>> (8 * i)))), a ≤ e.1 ∧ e.1 < a + n := by
    intro e he
    obtain ⟨i, hi, rfl⟩ := List.mem_map.1 he
    have := List.mem_range.1 hi
    exact ⟨Nat.le_add_right .., Nat.add_lt_add_left this a⟩
  unfold Memory.writeN
  refine ⟨List.pairwise_append.2 ⟨List.pairwise_append.2 ⟨hw.1.filter _, ?_, ?_⟩, hw.1.filter _, ?_⟩, ?_⟩
  · refine List.Pairwise.filter _ (List.pairwise_map.2 (List.Pairwise.imp ?_ List.pairwise_lt_range))
    intro i j h; exact Nat.add_lt_add_left h a
  · intro x hx y hy
    have h1 := (List.mem_filter.1 hx).2
    have h2 := (hmid y (List.mem_filter.1 hy).1).1
    simp only [decide_eq_true_eq] at h1
    exact Nat.lt_of_lt_of_le h1 h2
  · intro x hx y hy
    have h2 := (List.mem_filter.1 hy).2
    simp only [decide_eq_true_eq] at h2
    rcases List.mem_append.1 hx with hx | hx
    · have h1 := (List.mem_filter.1 hx).2
      simp only [decide_eq_true_eq] at h1
      omega
    · have h1 := (hmid x (List.mem_filter.1 hx).1).2
      omega
  · intro e he
    rcases List.mem_append.1 he with he | he
    · rcases List.mem_append.1 he with he | he
      · exact hw.2 e (List.mem_filter.1 he).1
      · simpa using (List.mem_filter.1 he).2
    · exact hw.2 e (List.mem_filter.1 he).1

/-- The store at reset lists nothing, and so has the canonical form. -/
theorem Arr.reset_wf : State.reset.sw.arr.wf := by
  refine ⟨⟨List.Pairwise.nil, ?_⟩, ⟨List.Pairwise.nil, ?_⟩, ⟨List.Pairwise.nil, ?_⟩, ⟨List.Pairwise.nil, ?_⟩⟩ <;> exact fun _ h => nomatch h

/-- Writing a line keeps the canonical form of the store. -/
theorem Arr.put_wf (a : Arr) (loc : Nat) (l : Line) (hw : a.wf) : (a.put loc l).wf :=
  ⟨Memory.writeN_wf _ _ _ _ hw.1, hw.2.1, sset_wf _ _ _ _ hw.2.2.1, hw.2.2.2⟩

/-- Writing a tag entry keeps the canonical form of the store. -/
theorem Arr.putTag_wf (a : Arr) (loc : Nat) (w : BitVec 64) (hw : a.wf) : (a.putTag loc w).wf :=
  ⟨hw.1, sset_wf _ _ _ _ hw.2.1, hw.2.2.1, hw.2.2.2⟩

/-- Writing a directory entry keeps the canonical form of the store. -/
theorem Arr.putDir_wf (a : Arr) (key : Nat) (w : BitVec 128) (hw : a.wf) : (a.putDir key w).wf :=
  ⟨hw.1, hw.2.1, hw.2.2.1, sset_wf _ _ _ _ hw.2.2.2⟩

/-- Replacing the data of a codeword keeps the canonical form of the store. -/
theorem Arr.setCw_wf (a : Arr) (st : Store) (cw : Nat) (v : BitVec 128) (hw : a.wf) : (a.setCw st cw v).wf := by
  cases st
  · exact ⟨Memory.writeN_wf _ _ _ _ hw.1, hw.2⟩
  · exact ⟨hw.1, hw.2.1, sset_wf _ _ _ _ (sset_wf _ _ _ _ hw.2.2.1), hw.2.2.2⟩
  · exact ⟨hw.1, sset_wf _ _ _ _ (sset_wf _ _ _ _ hw.2.1), hw.2.2⟩
  · exact ⟨hw.1, hw.2.1, hw.2.2.1, sset_wf _ _ _ _ hw.2.2.2⟩

/-- Taking the free data of a wide error keeps it too. -/
theorem Arr.takeFree_wf (a : Arr) (st : Store) (cw : Nat) (hw : a.wf) : (a.takeFree st cw).wf := Arr.setCw_wf a st cw _ hw

/-- A tag entry written is read back. -/
theorem Sw.setTag_tag (s : Sw) (loc : Nat) (w : BitVec 64) : (s.setTag loc w).tag loc = w := sget_sset ..

/-- A tag entry written leaves every other one. -/
theorem Sw.setTag_tag_ne (s : Sw) (loc k : Nat) (w : BitVec 64) (hw : s.arr.wf) (h : k ≠ loc) :
    (s.setTag loc w).tag k = s.tag k := sget_sset_ne _ _ _ _ _ hw.2.1 h

end Sys2Proof.Machine
end

