-- ==== Sys2Proof/Laws/Reset.lean ====
section
/-! SUPPORT. The sclk monitor, and everything that a release of a reset can do. -/
namespace Sys2Proof.Machine

@[simp] theorem SclkMon.edge_fields (m : SclkMon) : m.edge.edges = m.edges + 1 ∧ m.edge.good = m.good ∧ m.edge.slow = m.slow :=
  ⟨rfl, rfl, rfl⟩

/-- A cycle that ends leaves the counts within what they stand for (R406). -/
theorem SclkMon.cycle_le (m : SclkMon) (works : Bool) :
    (m.cycle works).edges = 0 ∧ (m.cycle works).good ≤ 64 ∧ (m.cycle works).slow ≤ 4 := by
  refine ⟨rfl, ?_, ?_⟩
  · show (if 3 ≤ m.edges then min 64 (m.good + 1) else 0) ≤ 64
    split <;> omega
  · show (if (works && decide (m.edges < 2)) = true then min 4 (m.slow + 1) else 0) ≤ 4
    split <;> omega

/-- The ref_clk part is ready when the logic has its supply, no pin is low, sclk is stable and 16 cycles have passed (R406). -/
theorem AlwaysOn.refReady_iff (a : AlwaysOn) (h : Hold) :
    a.refReady h = true ↔ a.asleep = false ∧ a.pinLow = false ∧ 64 ≤ a.sclk.good ∧ h.since + 16 ≤ a.refClk := by
  simp [AlwaysOn.refReady, SclkMon.stable, and_assoc]

/-- RESET_RELEASE finds nothing to do, raises a pin, releases the ref_clk part or releases the sclk part (R405, R406). -/
theorem execResetRelease_cases (s : State) :
    execResetRelease s = .next s ∨
    (∃ h, s.ao.hold = some h ∧ h.refOut = none ∧ s.ao.pinLow = true
      ∧ execResetRelease s = .next { s with ao := { s.ao with pinLow := false } }) ∨
    (∃ h, s.ao.hold = some h ∧ h.refOut = none ∧ s.ao.refReady h = true
      ∧ execResetRelease s = .next { s with ao := { s.ao with hold := some { h with refOut := some s.sw.fr.clk } } }) ∨
    ∃ h c, s.ao.hold = some h ∧ h.refOut = some c ∧ c + 2 ≤ s.sw.fr.clk
      ∧ execResetRelease s = .next { s with ao := s.ao.release h, sw := s.sw.released h s.ao.refClk } := by
  unfold execResetRelease
  cases e : s.ao.hold with
  | none => exact .inl rfl
  | some h =>
    cases f : h.refOut with
    | none =>
      by_cases p : s.ao.pinLow = true
      · exact .inr (.inl ⟨h, rfl, f, p, by simp [f, p, State.onAo]⟩)
      · by_cases r : s.ao.refReady h = true
        · exact .inr (.inr (.inl ⟨h, rfl, f, r, by simp [f, p, r, State.onAo]⟩))
        · exact .inl (by simp [f, p, r])
    | some c =>
      by_cases q : c + 2 ≤ s.sw.fr.clk
      · exact .inr (.inr (.inr ⟨h, c, rfl, f, q, by simp [f, q]⟩))
      · exact .inl (by simp [f, q])

end Sys2Proof.Machine
end

