-- ==== Sys2Proof/Laws/State.lean ====
section
/-! SUPPORT. One lemma per update of a group: what it writes and that every other group is unchanged. -/
namespace Sys2Proof.Machine

@[simp] theorem Sw.onLife_fields (s : Sw) (f : Life → Life) :
    (s.onLife f).life = f s.life ∧ (s.onLife f).port = s.port ∧ (s.onLife f).q = s.q ∧ (s.onLife f).pipe = s.pipe ∧ (s.onLife f).arr = s.arr ∧ (s.onLife f).map = s.map ∧ (s.onLife f).home = s.home ∧ (s.onLife f).cache = s.cache ∧ (s.onLife f).mp = s.mp ∧ (s.onLife f).fr = s.fr ∧ (s.onLife f).qos = s.qos ∧ (s.onLife f).pin = s.pin ∧ (s.onLife f).gth = s.gth ∧ (s.onLife f).syn = s.syn ∧ (s.onLife f).mbx = s.mbx ∧ (s.onLife f).evt = s.evt ∧ (s.onLife f).pmc = s.pmc ∧ (s.onLife f).trc = s.trc ∧ (s.onLife f).tel = s.tel ∧ (s.onLife f).rep = s.rep ∧ (s.onLife f).walk = s.walk :=
  ⟨rfl, rfl, rfl, rfl, rfl, rfl, rfl, rfl, rfl, rfl, rfl, rfl, rfl, rfl, rfl, rfl, rfl, rfl, rfl, rfl, rfl⟩

@[simp] theorem Sw.onPort_fields (s : Sw) (f : Port → Port) :
    (s.onPort f).port = f s.port ∧ (s.onPort f).life = s.life ∧ (s.onPort f).q = s.q ∧ (s.onPort f).pipe = s.pipe ∧ (s.onPort f).arr = s.arr ∧ (s.onPort f).map = s.map ∧ (s.onPort f).home = s.home ∧ (s.onPort f).cache = s.cache ∧ (s.onPort f).mp = s.mp ∧ (s.onPort f).fr = s.fr ∧ (s.onPort f).qos = s.qos ∧ (s.onPort f).pin = s.pin ∧ (s.onPort f).gth = s.gth ∧ (s.onPort f).syn = s.syn ∧ (s.onPort f).mbx = s.mbx ∧ (s.onPort f).evt = s.evt ∧ (s.onPort f).pmc = s.pmc ∧ (s.onPort f).trc = s.trc ∧ (s.onPort f).tel = s.tel ∧ (s.onPort f).rep = s.rep ∧ (s.onPort f).walk = s.walk :=
  ⟨rfl, rfl, rfl, rfl, rfl, rfl, rfl, rfl, rfl, rfl, rfl, rfl, rfl, rfl, rfl, rfl, rfl, rfl, rfl, rfl, rfl⟩

@[simp] theorem Sw.onQ_fields (s : Sw) (f : Queues → Queues) :
    (s.onQ f).q = f s.q ∧ (s.onQ f).life = s.life ∧ (s.onQ f).port = s.port ∧ (s.onQ f).pipe = s.pipe ∧ (s.onQ f).arr = s.arr ∧ (s.onQ f).map = s.map ∧ (s.onQ f).home = s.home ∧ (s.onQ f).cache = s.cache ∧ (s.onQ f).mp = s.mp ∧ (s.onQ f).fr = s.fr ∧ (s.onQ f).qos = s.qos ∧ (s.onQ f).pin = s.pin ∧ (s.onQ f).gth = s.gth ∧ (s.onQ f).syn = s.syn ∧ (s.onQ f).mbx = s.mbx ∧ (s.onQ f).evt = s.evt ∧ (s.onQ f).pmc = s.pmc ∧ (s.onQ f).trc = s.trc ∧ (s.onQ f).tel = s.tel ∧ (s.onQ f).rep = s.rep ∧ (s.onQ f).walk = s.walk :=
  ⟨rfl, rfl, rfl, rfl, rfl, rfl, rfl, rfl, rfl, rfl, rfl, rfl, rfl, rfl, rfl, rfl, rfl, rfl, rfl, rfl, rfl⟩

@[simp] theorem Sw.onPipe_fields (s : Sw) (f : Pipe → Pipe) :
    (s.onPipe f).pipe = f s.pipe ∧ (s.onPipe f).life = s.life ∧ (s.onPipe f).port = s.port ∧ (s.onPipe f).q = s.q ∧ (s.onPipe f).arr = s.arr ∧ (s.onPipe f).map = s.map ∧ (s.onPipe f).home = s.home ∧ (s.onPipe f).cache = s.cache ∧ (s.onPipe f).mp = s.mp ∧ (s.onPipe f).fr = s.fr ∧ (s.onPipe f).qos = s.qos ∧ (s.onPipe f).pin = s.pin ∧ (s.onPipe f).gth = s.gth ∧ (s.onPipe f).syn = s.syn ∧ (s.onPipe f).mbx = s.mbx ∧ (s.onPipe f).evt = s.evt ∧ (s.onPipe f).pmc = s.pmc ∧ (s.onPipe f).trc = s.trc ∧ (s.onPipe f).tel = s.tel ∧ (s.onPipe f).rep = s.rep ∧ (s.onPipe f).walk = s.walk :=
  ⟨rfl, rfl, rfl, rfl, rfl, rfl, rfl, rfl, rfl, rfl, rfl, rfl, rfl, rfl, rfl, rfl, rfl, rfl, rfl, rfl, rfl⟩

@[simp] theorem Sw.onArr_fields (s : Sw) (f : Arr → Arr) :
    (s.onArr f).arr = f s.arr ∧ (s.onArr f).life = s.life ∧ (s.onArr f).port = s.port ∧ (s.onArr f).q = s.q ∧ (s.onArr f).pipe = s.pipe ∧ (s.onArr f).map = s.map ∧ (s.onArr f).home = s.home ∧ (s.onArr f).cache = s.cache ∧ (s.onArr f).mp = s.mp ∧ (s.onArr f).fr = s.fr ∧ (s.onArr f).qos = s.qos ∧ (s.onArr f).pin = s.pin ∧ (s.onArr f).gth = s.gth ∧ (s.onArr f).syn = s.syn ∧ (s.onArr f).mbx = s.mbx ∧ (s.onArr f).evt = s.evt ∧ (s.onArr f).pmc = s.pmc ∧ (s.onArr f).trc = s.trc ∧ (s.onArr f).tel = s.tel ∧ (s.onArr f).rep = s.rep ∧ (s.onArr f).walk = s.walk :=
  ⟨rfl, rfl, rfl, rfl, rfl, rfl, rfl, rfl, rfl, rfl, rfl, rfl, rfl, rfl, rfl, rfl, rfl, rfl, rfl, rfl, rfl⟩

@[simp] theorem Sw.onMap_fields (s : Sw) (f : MapSt → MapSt) :
    (s.onMap f).map = f s.map ∧ (s.onMap f).life = s.life ∧ (s.onMap f).port = s.port ∧ (s.onMap f).q = s.q ∧ (s.onMap f).pipe = s.pipe ∧ (s.onMap f).arr = s.arr ∧ (s.onMap f).home = s.home ∧ (s.onMap f).cache = s.cache ∧ (s.onMap f).mp = s.mp ∧ (s.onMap f).fr = s.fr ∧ (s.onMap f).qos = s.qos ∧ (s.onMap f).pin = s.pin ∧ (s.onMap f).gth = s.gth ∧ (s.onMap f).syn = s.syn ∧ (s.onMap f).mbx = s.mbx ∧ (s.onMap f).evt = s.evt ∧ (s.onMap f).pmc = s.pmc ∧ (s.onMap f).trc = s.trc ∧ (s.onMap f).tel = s.tel ∧ (s.onMap f).rep = s.rep ∧ (s.onMap f).walk = s.walk :=
  ⟨rfl, rfl, rfl, rfl, rfl, rfl, rfl, rfl, rfl, rfl, rfl, rfl, rfl, rfl, rfl, rfl, rfl, rfl, rfl, rfl, rfl⟩

@[simp] theorem Sw.onHome_fields (s : Sw) (f : Home → Home) :
    (s.onHome f).home = f s.home ∧ (s.onHome f).life = s.life ∧ (s.onHome f).port = s.port ∧ (s.onHome f).q = s.q ∧ (s.onHome f).pipe = s.pipe ∧ (s.onHome f).arr = s.arr ∧ (s.onHome f).map = s.map ∧ (s.onHome f).cache = s.cache ∧ (s.onHome f).mp = s.mp ∧ (s.onHome f).fr = s.fr ∧ (s.onHome f).qos = s.qos ∧ (s.onHome f).pin = s.pin ∧ (s.onHome f).gth = s.gth ∧ (s.onHome f).syn = s.syn ∧ (s.onHome f).mbx = s.mbx ∧ (s.onHome f).evt = s.evt ∧ (s.onHome f).pmc = s.pmc ∧ (s.onHome f).trc = s.trc ∧ (s.onHome f).tel = s.tel ∧ (s.onHome f).rep = s.rep ∧ (s.onHome f).walk = s.walk :=
  ⟨rfl, rfl, rfl, rfl, rfl, rfl, rfl, rfl, rfl, rfl, rfl, rfl, rfl, rfl, rfl, rfl, rfl, rfl, rfl, rfl, rfl⟩

@[simp] theorem Sw.onCache_fields (s : Sw) (f : Cache → Cache) :
    (s.onCache f).cache = f s.cache ∧ (s.onCache f).life = s.life ∧ (s.onCache f).port = s.port ∧ (s.onCache f).q = s.q ∧ (s.onCache f).pipe = s.pipe ∧ (s.onCache f).arr = s.arr ∧ (s.onCache f).map = s.map ∧ (s.onCache f).home = s.home ∧ (s.onCache f).mp = s.mp ∧ (s.onCache f).fr = s.fr ∧ (s.onCache f).qos = s.qos ∧ (s.onCache f).pin = s.pin ∧ (s.onCache f).gth = s.gth ∧ (s.onCache f).syn = s.syn ∧ (s.onCache f).mbx = s.mbx ∧ (s.onCache f).evt = s.evt ∧ (s.onCache f).pmc = s.pmc ∧ (s.onCache f).trc = s.trc ∧ (s.onCache f).tel = s.tel ∧ (s.onCache f).rep = s.rep ∧ (s.onCache f).walk = s.walk :=
  ⟨rfl, rfl, rfl, rfl, rfl, rfl, rfl, rfl, rfl, rfl, rfl, rfl, rfl, rfl, rfl, rfl, rfl, rfl, rfl, rfl, rfl⟩

@[simp] theorem Sw.onMp_fields (s : Sw) (f : Mp → Mp) :
    (s.onMp f).mp = f s.mp ∧ (s.onMp f).life = s.life ∧ (s.onMp f).port = s.port ∧ (s.onMp f).q = s.q ∧ (s.onMp f).pipe = s.pipe ∧ (s.onMp f).arr = s.arr ∧ (s.onMp f).map = s.map ∧ (s.onMp f).home = s.home ∧ (s.onMp f).cache = s.cache ∧ (s.onMp f).fr = s.fr ∧ (s.onMp f).qos = s.qos ∧ (s.onMp f).pin = s.pin ∧ (s.onMp f).gth = s.gth ∧ (s.onMp f).syn = s.syn ∧ (s.onMp f).mbx = s.mbx ∧ (s.onMp f).evt = s.evt ∧ (s.onMp f).pmc = s.pmc ∧ (s.onMp f).trc = s.trc ∧ (s.onMp f).tel = s.tel ∧ (s.onMp f).rep = s.rep ∧ (s.onMp f).walk = s.walk :=
  ⟨rfl, rfl, rfl, rfl, rfl, rfl, rfl, rfl, rfl, rfl, rfl, rfl, rfl, rfl, rfl, rfl, rfl, rfl, rfl, rfl, rfl⟩

@[simp] theorem Sw.onFr_fields (s : Sw) (f : Frame → Frame) :
    (s.onFr f).fr = f s.fr ∧ (s.onFr f).life = s.life ∧ (s.onFr f).port = s.port ∧ (s.onFr f).q = s.q ∧ (s.onFr f).pipe = s.pipe ∧ (s.onFr f).arr = s.arr ∧ (s.onFr f).map = s.map ∧ (s.onFr f).home = s.home ∧ (s.onFr f).cache = s.cache ∧ (s.onFr f).mp = s.mp ∧ (s.onFr f).qos = s.qos ∧ (s.onFr f).pin = s.pin ∧ (s.onFr f).gth = s.gth ∧ (s.onFr f).syn = s.syn ∧ (s.onFr f).mbx = s.mbx ∧ (s.onFr f).evt = s.evt ∧ (s.onFr f).pmc = s.pmc ∧ (s.onFr f).trc = s.trc ∧ (s.onFr f).tel = s.tel ∧ (s.onFr f).rep = s.rep ∧ (s.onFr f).walk = s.walk :=
  ⟨rfl, rfl, rfl, rfl, rfl, rfl, rfl, rfl, rfl, rfl, rfl, rfl, rfl, rfl, rfl, rfl, rfl, rfl, rfl, rfl, rfl⟩

@[simp] theorem Sw.onQos_fields (s : Sw) (f : Qos → Qos) :
    (s.onQos f).qos = f s.qos ∧ (s.onQos f).life = s.life ∧ (s.onQos f).port = s.port ∧ (s.onQos f).q = s.q ∧ (s.onQos f).pipe = s.pipe ∧ (s.onQos f).arr = s.arr ∧ (s.onQos f).map = s.map ∧ (s.onQos f).home = s.home ∧ (s.onQos f).cache = s.cache ∧ (s.onQos f).mp = s.mp ∧ (s.onQos f).fr = s.fr ∧ (s.onQos f).pin = s.pin ∧ (s.onQos f).gth = s.gth ∧ (s.onQos f).syn = s.syn ∧ (s.onQos f).mbx = s.mbx ∧ (s.onQos f).evt = s.evt ∧ (s.onQos f).pmc = s.pmc ∧ (s.onQos f).trc = s.trc ∧ (s.onQos f).tel = s.tel ∧ (s.onQos f).rep = s.rep ∧ (s.onQos f).walk = s.walk :=
  ⟨rfl, rfl, rfl, rfl, rfl, rfl, rfl, rfl, rfl, rfl, rfl, rfl, rfl, rfl, rfl, rfl, rfl, rfl, rfl, rfl, rfl⟩

@[simp] theorem Sw.onPin_fields (s : Sw) (f : Pin → Pin) :
    (s.onPin f).pin = f s.pin ∧ (s.onPin f).life = s.life ∧ (s.onPin f).port = s.port ∧ (s.onPin f).q = s.q ∧ (s.onPin f).pipe = s.pipe ∧ (s.onPin f).arr = s.arr ∧ (s.onPin f).map = s.map ∧ (s.onPin f).home = s.home ∧ (s.onPin f).cache = s.cache ∧ (s.onPin f).mp = s.mp ∧ (s.onPin f).fr = s.fr ∧ (s.onPin f).qos = s.qos ∧ (s.onPin f).gth = s.gth ∧ (s.onPin f).syn = s.syn ∧ (s.onPin f).mbx = s.mbx ∧ (s.onPin f).evt = s.evt ∧ (s.onPin f).pmc = s.pmc ∧ (s.onPin f).trc = s.trc ∧ (s.onPin f).tel = s.tel ∧ (s.onPin f).rep = s.rep ∧ (s.onPin f).walk = s.walk :=
  ⟨rfl, rfl, rfl, rfl, rfl, rfl, rfl, rfl, rfl, rfl, rfl, rfl, rfl, rfl, rfl, rfl, rfl, rfl, rfl, rfl, rfl⟩

@[simp] theorem Sw.onGth_fields (s : Sw) (f : GthSt → GthSt) :
    (s.onGth f).gth = f s.gth ∧ (s.onGth f).life = s.life ∧ (s.onGth f).port = s.port ∧ (s.onGth f).q = s.q ∧ (s.onGth f).pipe = s.pipe ∧ (s.onGth f).arr = s.arr ∧ (s.onGth f).map = s.map ∧ (s.onGth f).home = s.home ∧ (s.onGth f).cache = s.cache ∧ (s.onGth f).mp = s.mp ∧ (s.onGth f).fr = s.fr ∧ (s.onGth f).qos = s.qos ∧ (s.onGth f).pin = s.pin ∧ (s.onGth f).syn = s.syn ∧ (s.onGth f).mbx = s.mbx ∧ (s.onGth f).evt = s.evt ∧ (s.onGth f).pmc = s.pmc ∧ (s.onGth f).trc = s.trc ∧ (s.onGth f).tel = s.tel ∧ (s.onGth f).rep = s.rep ∧ (s.onGth f).walk = s.walk :=
  ⟨rfl, rfl, rfl, rfl, rfl, rfl, rfl, rfl, rfl, rfl, rfl, rfl, rfl, rfl, rfl, rfl, rfl, rfl, rfl, rfl, rfl⟩

@[simp] theorem Sw.onSyn_fields (s : Sw) (f : Syn → Syn) :
    (s.onSyn f).syn = f s.syn ∧ (s.onSyn f).life = s.life ∧ (s.onSyn f).port = s.port ∧ (s.onSyn f).q = s.q ∧ (s.onSyn f).pipe = s.pipe ∧ (s.onSyn f).arr = s.arr ∧ (s.onSyn f).map = s.map ∧ (s.onSyn f).home = s.home ∧ (s.onSyn f).cache = s.cache ∧ (s.onSyn f).mp = s.mp ∧ (s.onSyn f).fr = s.fr ∧ (s.onSyn f).qos = s.qos ∧ (s.onSyn f).pin = s.pin ∧ (s.onSyn f).gth = s.gth ∧ (s.onSyn f).mbx = s.mbx ∧ (s.onSyn f).evt = s.evt ∧ (s.onSyn f).pmc = s.pmc ∧ (s.onSyn f).trc = s.trc ∧ (s.onSyn f).tel = s.tel ∧ (s.onSyn f).rep = s.rep ∧ (s.onSyn f).walk = s.walk :=
  ⟨rfl, rfl, rfl, rfl, rfl, rfl, rfl, rfl, rfl, rfl, rfl, rfl, rfl, rfl, rfl, rfl, rfl, rfl, rfl, rfl, rfl⟩

@[simp] theorem Sw.onMbx_fields (s : Sw) (f : Mbx → Mbx) :
    (s.onMbx f).mbx = f s.mbx ∧ (s.onMbx f).life = s.life ∧ (s.onMbx f).port = s.port ∧ (s.onMbx f).q = s.q ∧ (s.onMbx f).pipe = s.pipe ∧ (s.onMbx f).arr = s.arr ∧ (s.onMbx f).map = s.map ∧ (s.onMbx f).home = s.home ∧ (s.onMbx f).cache = s.cache ∧ (s.onMbx f).mp = s.mp ∧ (s.onMbx f).fr = s.fr ∧ (s.onMbx f).qos = s.qos ∧ (s.onMbx f).pin = s.pin ∧ (s.onMbx f).gth = s.gth ∧ (s.onMbx f).syn = s.syn ∧ (s.onMbx f).evt = s.evt ∧ (s.onMbx f).pmc = s.pmc ∧ (s.onMbx f).trc = s.trc ∧ (s.onMbx f).tel = s.tel ∧ (s.onMbx f).rep = s.rep ∧ (s.onMbx f).walk = s.walk :=
  ⟨rfl, rfl, rfl, rfl, rfl, rfl, rfl, rfl, rfl, rfl, rfl, rfl, rfl, rfl, rfl, rfl, rfl, rfl, rfl, rfl, rfl⟩

@[simp] theorem Sw.onEvt_fields (s : Sw) (f : Evt → Evt) :
    (s.onEvt f).evt = f s.evt ∧ (s.onEvt f).life = s.life ∧ (s.onEvt f).port = s.port ∧ (s.onEvt f).q = s.q ∧ (s.onEvt f).pipe = s.pipe ∧ (s.onEvt f).arr = s.arr ∧ (s.onEvt f).map = s.map ∧ (s.onEvt f).home = s.home ∧ (s.onEvt f).cache = s.cache ∧ (s.onEvt f).mp = s.mp ∧ (s.onEvt f).fr = s.fr ∧ (s.onEvt f).qos = s.qos ∧ (s.onEvt f).pin = s.pin ∧ (s.onEvt f).gth = s.gth ∧ (s.onEvt f).syn = s.syn ∧ (s.onEvt f).mbx = s.mbx ∧ (s.onEvt f).pmc = s.pmc ∧ (s.onEvt f).trc = s.trc ∧ (s.onEvt f).tel = s.tel ∧ (s.onEvt f).rep = s.rep ∧ (s.onEvt f).walk = s.walk :=
  ⟨rfl, rfl, rfl, rfl, rfl, rfl, rfl, rfl, rfl, rfl, rfl, rfl, rfl, rfl, rfl, rfl, rfl, rfl, rfl, rfl, rfl⟩

@[simp] theorem Sw.onPmc_fields (s : Sw) (f : Pmc → Pmc) :
    (s.onPmc f).pmc = f s.pmc ∧ (s.onPmc f).life = s.life ∧ (s.onPmc f).port = s.port ∧ (s.onPmc f).q = s.q ∧ (s.onPmc f).pipe = s.pipe ∧ (s.onPmc f).arr = s.arr ∧ (s.onPmc f).map = s.map ∧ (s.onPmc f).home = s.home ∧ (s.onPmc f).cache = s.cache ∧ (s.onPmc f).mp = s.mp ∧ (s.onPmc f).fr = s.fr ∧ (s.onPmc f).qos = s.qos ∧ (s.onPmc f).pin = s.pin ∧ (s.onPmc f).gth = s.gth ∧ (s.onPmc f).syn = s.syn ∧ (s.onPmc f).mbx = s.mbx ∧ (s.onPmc f).evt = s.evt ∧ (s.onPmc f).trc = s.trc ∧ (s.onPmc f).tel = s.tel ∧ (s.onPmc f).rep = s.rep ∧ (s.onPmc f).walk = s.walk :=
  ⟨rfl, rfl, rfl, rfl, rfl, rfl, rfl, rfl, rfl, rfl, rfl, rfl, rfl, rfl, rfl, rfl, rfl, rfl, rfl, rfl, rfl⟩

@[simp] theorem Sw.onTrc_fields (s : Sw) (f : Trc → Trc) :
    (s.onTrc f).trc = f s.trc ∧ (s.onTrc f).life = s.life ∧ (s.onTrc f).port = s.port ∧ (s.onTrc f).q = s.q ∧ (s.onTrc f).pipe = s.pipe ∧ (s.onTrc f).arr = s.arr ∧ (s.onTrc f).map = s.map ∧ (s.onTrc f).home = s.home ∧ (s.onTrc f).cache = s.cache ∧ (s.onTrc f).mp = s.mp ∧ (s.onTrc f).fr = s.fr ∧ (s.onTrc f).qos = s.qos ∧ (s.onTrc f).pin = s.pin ∧ (s.onTrc f).gth = s.gth ∧ (s.onTrc f).syn = s.syn ∧ (s.onTrc f).mbx = s.mbx ∧ (s.onTrc f).evt = s.evt ∧ (s.onTrc f).pmc = s.pmc ∧ (s.onTrc f).tel = s.tel ∧ (s.onTrc f).rep = s.rep ∧ (s.onTrc f).walk = s.walk :=
  ⟨rfl, rfl, rfl, rfl, rfl, rfl, rfl, rfl, rfl, rfl, rfl, rfl, rfl, rfl, rfl, rfl, rfl, rfl, rfl, rfl, rfl⟩

@[simp] theorem Sw.onTel_fields (s : Sw) (f : Tel → Tel) :
    (s.onTel f).tel = f s.tel ∧ (s.onTel f).life = s.life ∧ (s.onTel f).port = s.port ∧ (s.onTel f).q = s.q ∧ (s.onTel f).pipe = s.pipe ∧ (s.onTel f).arr = s.arr ∧ (s.onTel f).map = s.map ∧ (s.onTel f).home = s.home ∧ (s.onTel f).cache = s.cache ∧ (s.onTel f).mp = s.mp ∧ (s.onTel f).fr = s.fr ∧ (s.onTel f).qos = s.qos ∧ (s.onTel f).pin = s.pin ∧ (s.onTel f).gth = s.gth ∧ (s.onTel f).syn = s.syn ∧ (s.onTel f).mbx = s.mbx ∧ (s.onTel f).evt = s.evt ∧ (s.onTel f).pmc = s.pmc ∧ (s.onTel f).trc = s.trc ∧ (s.onTel f).rep = s.rep ∧ (s.onTel f).walk = s.walk :=
  ⟨rfl, rfl, rfl, rfl, rfl, rfl, rfl, rfl, rfl, rfl, rfl, rfl, rfl, rfl, rfl, rfl, rfl, rfl, rfl, rfl, rfl⟩

@[simp] theorem Sw.onRep_fields (s : Sw) (f : Rep → Rep) :
    (s.onRep f).rep = f s.rep ∧ (s.onRep f).life = s.life ∧ (s.onRep f).port = s.port ∧ (s.onRep f).q = s.q ∧ (s.onRep f).pipe = s.pipe ∧ (s.onRep f).arr = s.arr ∧ (s.onRep f).map = s.map ∧ (s.onRep f).home = s.home ∧ (s.onRep f).cache = s.cache ∧ (s.onRep f).mp = s.mp ∧ (s.onRep f).fr = s.fr ∧ (s.onRep f).qos = s.qos ∧ (s.onRep f).pin = s.pin ∧ (s.onRep f).gth = s.gth ∧ (s.onRep f).syn = s.syn ∧ (s.onRep f).mbx = s.mbx ∧ (s.onRep f).evt = s.evt ∧ (s.onRep f).pmc = s.pmc ∧ (s.onRep f).trc = s.trc ∧ (s.onRep f).tel = s.tel ∧ (s.onRep f).walk = s.walk :=
  ⟨rfl, rfl, rfl, rfl, rfl, rfl, rfl, rfl, rfl, rfl, rfl, rfl, rfl, rfl, rfl, rfl, rfl, rfl, rfl, rfl, rfl⟩

@[simp] theorem Sw.onWalk_fields (s : Sw) (f : Option Walk → Option Walk) :
    (s.onWalk f).walk = f s.walk ∧ (s.onWalk f).life = s.life ∧ (s.onWalk f).port = s.port ∧ (s.onWalk f).q = s.q ∧ (s.onWalk f).pipe = s.pipe ∧ (s.onWalk f).arr = s.arr ∧ (s.onWalk f).map = s.map ∧ (s.onWalk f).home = s.home ∧ (s.onWalk f).cache = s.cache ∧ (s.onWalk f).mp = s.mp ∧ (s.onWalk f).fr = s.fr ∧ (s.onWalk f).qos = s.qos ∧ (s.onWalk f).pin = s.pin ∧ (s.onWalk f).gth = s.gth ∧ (s.onWalk f).syn = s.syn ∧ (s.onWalk f).mbx = s.mbx ∧ (s.onWalk f).evt = s.evt ∧ (s.onWalk f).pmc = s.pmc ∧ (s.onWalk f).trc = s.trc ∧ (s.onWalk f).tel = s.tel ∧ (s.onWalk f).rep = s.rep :=
  ⟨rfl, rfl, rfl, rfl, rfl, rfl, rfl, rfl, rfl, rfl, rfl, rfl, rfl, rfl, rfl, rfl, rfl, rfl, rfl, rfl, rfl⟩

@[simp] theorem State.onAo_fields (s : State) (f : AlwaysOn → AlwaysOn) :
    (s.onAo f).ao = f s.ao ∧ (s.onAo f).sw = s.sw ∧ (s.onAo f).params = s.params ∧ (s.onAo f).pending = s.pending :=
  ⟨rfl, rfl, rfl, rfl⟩

@[simp] theorem State.onSw_fields (s : State) (f : Sw → Sw) :
    (s.onSw f).sw = f s.sw ∧ (s.onSw f).ao = s.ao ∧ (s.onSw f).params = s.params ∧ (s.onSw f).pending = s.pending :=
  ⟨rfl, rfl, rfl, rfl⟩

end Sys2Proof.Machine
end

