-- ==== Sys2Proof/Laws/Window.lean ====
section
/-! SUPPORT. Window accesses: a half that acts, and the reads that follow it, change the pipeline alone. -/
namespace Sys2Proof.Machine

/-- A half that has acted changes the pipeline alone, and drops no response. -/
theorem Sw.halfDone_only (s : Sw) (p : Params) (n v : Nat) : ∃ q, s.halfDone p n v = { s with pipe := q } ∧ ∀ r ∈ s.pipe.rsp, r ∈ q.rsp := by
  unfold Sw.halfDone
  split
  · split
    · dsimp only; split
      · refine ⟨_, rfl, ?_⟩; intro r hr; simp [Sw.onPipe,  Sw.respond, hr]
      · exact ⟨_, rfl, fun r hr => hr⟩
    · exact ⟨_, rfl, fun r hr => hr⟩
  · exact ⟨s.pipe, rfl, fun r hr => hr⟩
/-- Reads change the pipeline alone, and drop no response. -/
theorem Sw.drainReads_only (p : Params) (ao : AlwaysOn) : ∀ n (s : Sw), ∃ q, Sw.drainReads p ao n s = { s with pipe := q } ∧ ∀ r ∈ s.pipe.rsp, r ∈ q.rsp
  | 0, s => ⟨s.pipe, rfl, fun _ h => h⟩
  | n + 1, s => by
    unfold Sw.drainReads
    split
    · split
      · split
        · dsimp only
          rename_i a off x hf h1 h2
          obtain ⟨q, h, h'⟩ := Sw.halfDone_only s p (a.f.len.toNat + 1) (if off % 256 < 64 then bytesN (s.mbx.ch (BitVec.ofNat 2 ((off - 4096) / 256))).cmd (off % 64) (a.f.len.toNat + 1) else bytesN (s.mbx.ch (BitVec.ofNat 2 ((off - 4096) / 256))).rsp (off % 64) (a.f.len.toNat + 1))
          obtain ⟨q2, h2, h2'⟩ := Sw.drainReads_only p ao n _
          exact ⟨q2, by rw [h2, h], fun r hr => h2' r (by rw [h]; exact h' r hr)⟩
        · rename_i a off x hf h1 h2
          obtain ⟨q, h, h'⟩ := Sw.halfDone_only s p 4 ((regRead p ao s off).getD 0)
          obtain ⟨q2, h2, h2'⟩ := Sw.drainReads_only p ao n _
          exact ⟨q2, by rw [h2, h], fun r hr => h2' r (by rw [h]; exact h' r hr)⟩
      · exact ⟨s.pipe, rfl, fun _ h => h⟩
    · exact ⟨s.pipe, rfl, fun _ h => h⟩
/-- The reads at the front change the pipeline alone, and drop no response. -/
theorem Sw.reads_only (s : Sw) (p : Params) (ao : AlwaysOn) : ∃ q, s.reads p ao = { s with pipe := q } ∧ ∀ r ∈ s.pipe.rsp, r ∈ q.rsp := Sw.drainReads_only ..
end Sys2Proof.Machine
end

