-- ==== Sys2Proof/Tests/Slice0.lean ====
section
/-! SUPPORT. Tests of one step each, with results worked out by hand from the spec, and for each statement states and operands
that meet its hypotheses. -/
namespace Sys2Proof.Tests
open Sys2Proof Sys2Proof.Machine

-- One theorem at a time: each waits for the kernel, and many waiting at once take too many threads.
set_option Elab.async false

/-! ## Small states -/

/-- The state after reset with its switched region changed. -/
abbrev withSw (f : Sw → Sw) : State := { State.reset with sw := f State.reset.sw }

/-- The state after reset with its always-on region changed. -/
abbrev withAo (f : AlwaysOn → AlwaysOn) : State := { State.reset with ao := f State.reset.ao }

/-- A slice in state `st` with the Lehr out of reset. -/
abbrev inState (st : SliceSt) (s : Sw) : Sw := { s with life := { s.life with st := st, lehrUp := true } }

/-- A command as firmware holds it. -/
def cmd (op : Nat) (fs : List (Nat × Nat × Nat)) : RunCmd := ⟨BitVec.ofNat 16 op, 1, BitVec.ofNat 416 (payload fs), false⟩

/-- Channel 0 runs a command in a slice in state `st`. -/
abbrev running (st : SliceSt) (c : RunCmd) (s : Sw) : Sw :=
  (inState st s).onMbx fun m => { m with ch0 := { m.ch0 with st := .running, run := some c } }

/-- A command that is ready, as a check. -/
def isReady (s : State) (n : BitVec 2) (op : Nat) (c : RunCmd) : Bool :=
  s.awake && s.sw.life.lehrUp && decide ((s.sw.mbx.ch n).run = some c) && c.op.toNat == op && !c.started
    && (cmdRow op).any fun r => s.sw.checkState r c.pay == none

/-- The check says what it should. -/
theorem ready {s : State} {n : BitVec 2} {op : Nat} {c : RunCmd} (h : isReady s n op c = true) : CommandReady s n op c := by
  simp only [isReady, Bool.and_eq_true, decide_eq_true_eq, beq_iff_eq, Bool.not_eq_true'] at h
  obtain ⟨⟨⟨⟨⟨h1, h2⟩, h3⟩, h4⟩, h5⟩, h6⟩ := h
  cases hr : cmdRow op with
  | none => simp [hr] at h6
  | some r => exact ⟨h1, h2, h3, h4, h5, r, hr, by simpa [hr] using h6⟩

/-- The header of an IO access from the Lehr of `n + 1` bytes. -/
def ioAt (n : Nat) (p : BitVec 512) : Io := ⟨0x02, 5, 0x10, 0x10000000, BitVec.ofNat 6 n, 3, 0, 0, p⟩

/-- A window access of 4 bytes accepted in clk 0. -/
def access (write : Bool) (off : Nat) (v : BitVec 32) : WinAcc := ⟨0, ioAt 3 (v.setWidth 512), write, off, [(off, v)], 0⟩

/-- The window access is at the front. -/
abbrev withAccess (a : WinAcc) (s : Sw) : Sw := { s with pipe := { s.pipe with win := [a] } }

/-- An access at the front is what AtFront says. -/
theorem atFront (write : Bool) (off : Nat) (v : BitVec 32) :
    AtFront (withSw fun s => withAccess (access write off v) s) write (access write off v) off v := ⟨rfl, rfl, rfl⟩

/-! ## Steps worked out by hand -/

/-- R13's example: line address 0x0000_0000_0001_2380 of the package is in line group 583. -/
theorem test_line_group_low : lineGroup (laddrOf 0x0000000012380) = 583 := by decide

theorem test_line_group_folds : lineGroup (laddrOf 0x0002008020080) = 0 := by decide

/-- Lanes without responses, entries beyond the 128 of the tracker and sites beyond the five detectors are ill formed. -/
theorem test_wellFormed_refuses_snp : WellFormed (.responseSend .snp) = false := by decide
theorem test_wellFormed_refuses_entry : WellFormed (.retryTrackerExpiry 128) = false := by decide
theorem test_wellFormed_refuses_site : WellFormed (.droopExcursion 5) = false := by decide
theorem test_wellFormed_accepts :
    WellFormed (.responseSend .io) = true ∧ WellFormed (.retryTrackerExpiry 127) = true ∧ WellFormed (.droopExcursion 4) = true := by
  decide

/-- No row of the table gives bits. -/
theorem test_no_word_decodes : decodeTableWord 16 0 = none := rfl

/-! ## Witnesses: the queue and the outcomes -/

theorem witness_StepRunsFrontCommand :
    ({ State.reset with pending := [.slotDecide, .tickTaken] } : State).pending = .slotDecide :: [.tickTaken] := rfl

/-- A read under way whose first beat has not come. -/
def oneRead (c : RdCause) : MpOut := ⟨0, ⟨c, 7, 0, none, 0, 1, 0, 3⟩, none⟩

theorem witness_EveryCommandIsModelled :
    exec (.mpReadBeat 0 true 0 0 0 false) (withSw fun s => { s with mp := { s.mp with out := [oneRead (.bind 7)] } })
      = .fault .unspecified := rfl

theorem witness_QueueAndParametersKept : ∃ t, exec .tickTaken State.reset = .next t := ⟨_, rfl⟩

theorem witness_HeldRegionStandsStill :
    (withAo fun a => { a with hold := some ⟨3, 1, [3], 0, false, 0, [], none⟩ }).awake = false
      ∧ actsWhileHeld .tickTaken = false := by decide

/-! ## Witnesses: resets, Lehr, power -/

/-- A hold that began at clk 0 and ref_clk 0, at ref_clk 64, with sclk stable. -/
def heldAs (h : Hold) : State := withAo fun a => { a with hold := some h, refClk := 64, sclk := ⟨0, 64, 0⟩ }

/-- A hold of cause `cause` alone. -/
def hold (cause : BitVec 4) (reach : BitVec 2) (p : Bool) : Hold := ⟨cause, reach, [cause], 0, p, 0, [], none⟩

/-- The slice held by it. -/
def held (cause : BitVec 4) (reach : BitVec 2) (p : Bool) : State := heldAs (hold cause reach p)

theorem witness_PowerOnResetsTheSlice :
    (∀ h, State.reset.ao.hold = some h → h.powerOn = true → h.reach = 0) ∧
    ∀ h, (held 2 0 true).ao.hold = some h → h.powerOn = true → h.reach = 0 := by
  constructor
  · intro h e; cases e
  · intro h e; cases e; decide

/-- A slice that runs, with its watchdog armed at ref_clk 0 and 50 ms gone by, and a request that has stayed for 64 frames. -/
def stuck : State :=
  { State.reset with
    ao := { State.reset.ao with refClk := 5000000, sclk := ⟨0, 0, 4⟩ }
    sw := { State.reset.sw with
      life := { State.reset.sw.life with st := .running, lehrUp := true, wdog := some 0 }
      fr := { State.reset.sw.fr with frameNo := 64 }
      q := { State.reset.sw.q with io := [⟨0, ioAt 3 0, 0, 0, false⟩] } } }

theorem witness_WarmResetCausesAndAbsorption :
    WarmCause stuck .pinReset 3 ∧ WarmCause stuck .clockFail 7 ∧ WarmCause stuck .watchdog 4 ∧ WarmCause stuck .lockup 8
      ∧ (held 4 1 false).ao.hold = some (hold 4 1 false) ∧ (1 : BitVec 2).toNat ≤ 1 := by
  refine ⟨.inl ⟨rfl, rfl, rfl⟩, .inr (.inl ⟨rfl, rfl, rfl, by decide⟩), .inr (.inr (.inl ⟨rfl, rfl, rfl, 0, rfl, by decide⟩)), ?_, rfl, by decide⟩
  refine .inr (.inr (.inr ⟨rfl, rfl, rfl, .inl rfl, .inr (.inl ⟨_, List.mem_singleton.2 rfl, ?_⟩)⟩))
  unfold Stuck; decide

/-- The watchdog, the sclk monitor and a lockup of the clk in which the pin fell: each joins the hold. -/
theorem witness_WarmResetCausesAndAbsorption_sameClk :
    ∀ cause ∈ ([4, 7, 8] : List (BitVec 4)), ∃ h, (heldAs { hold 3 1 false with besides := [4, 7, 8] }).ao.hold = some h
      ∧ h.reach.toNat ≤ 1 ∧ h.clk = (heldAs { hold 3 1 false with besides := [4, 7, 8] }).sw.fr.clk ∧ cause ∈ h.besides :=
  fun _ m => ⟨_, rfl, by decide, rfl, m⟩

/-- A software reset whose 2 µs have passed. -/
def dueReset (reach : BitVec 2) (unit : BitVec 3) : State := withAo fun a => { a with swReset := [⟨6, reach, unit, 200⟩], refClk := 200 }

theorem witness_ResetsOfTheEventUnit :
    State.reset.ao.hold = none ∧ Sparse.wf EvtSrc.reset State.reset.sw.evt.src ∧ Sparse.wf BankSt.reset State.reset.sw.evt.bank
      ∧ (dueReset 0 0).ao.swReset = [⟨6, 0, 0, 200⟩] ∧ (dueReset 2 7).ao.swReset = [⟨6, 2, 7, 200⟩]
      ∧ (dueReset 2 7).ao.hold = none ∧ (∀ k, (sget 0 (dueReset 2 7).sw.pmc.cfg k).getLsbD 0 = false)
      ∧ (dueReset 2 7).sw.gth.tmplNext = [] ∧ (dueReset 2 7).sw.walk = none :=
  ⟨by decide, by decide, by decide, by decide, by decide, by decide, fun _ => by simp [dueReset, State.reset, Sw.reset, Pmc.reset, sget], by decide, by decide⟩

/-- A hold whose ref_clk part released at clk 65,534. -/
def released (h : Hold) : State :=
  { heldAs { h with refOut := some 65534 } with sw := { State.reset.sw with
      fr := { State.reset.sw.fr with clk := 65536 }
      arr := { State.reset.sw.arr with tags := [(16, tagWord 1 true true 0 false 0 0 false), (32, tagWord 1 true true 0 false 1 5 false)] } } }

/-- A slice with a sweep that can end at clk 65,536, unit 4 held until now, and a fuse read that has waited 1,024 ref_clk. -/
def ending : State :=
  { State.reset with
    ao := { State.reset.ao with blockHolds := [⟨4, 6, 16, 0, [6]⟩], refClk := 1024 }
    sw := { State.reset.sw with
      life := { State.reset.sw.life with sweep := some 65536 }
      fr := { State.reset.sw.fr with clk := 65536 } } }

/-- The same with a reset pin low. -/
def pinned (s : State) : State := { s with ao := { s.ao with pinLow := true } }

/-- The same with sclk not stable. -/
def unstable (s : State) : State := { s with ao := { s.ao with sclk := ⟨0, 63, 0⟩ } }

theorem witness_ResetsAndHoldsEnd :
    (held 7 1 false).ao.hold = some (hold 7 1 false) ∧ (held 7 1 false).ao.asleep = false ∧ (hold 7 1 false).refOut = none
      ∧ (held 7 1 false).ao.pinLow = false ∧ 64 ≤ (held 7 1 false).ao.sclk.good ∧ 0 + 16 ≤ (held 7 1 false).ao.refClk
      ∧ (held 1 0 true).ao.hold = some (hold 1 0 true) ∧ (pinned (held 3 1 false)).ao.pinLow = true
      ∧ (pinned (held 3 1 false)).ao.hold = some (hold 3 1 false)
      ∧ (unstable (held 7 1 false)).ao.sclk.good < 64 ∧ (unstable (held 7 1 false)).ao.hold = some (hold 7 1 false)
      ∧ (released (hold 3 1 false)).ao.hold = some { hold 3 1 false with refOut := some 65534 }
      ∧ 65534 + 2 ≤ (released (hold 3 1 false)).sw.fr.clk ∧ (released (hold 3 1 false)).sw.arr.errs = []
      ∧ (released (hold 3 1 false)).sw.arr.lost = [] ∧ Sparse.wf 0 (released (hold 3 1 false)).sw.arr.tags
      ∧ tKind ((released (hold 3 1 false)).sw.tag 16) = 0 ∧ tKind ((released (hold 3 1 false)).sw.tag 32) ≠ 0
      ∧ ending.awake = true ∧ ending.sw.life.sweep = some 65536 ∧ 65536 ≤ ending.sw.fr.clk ∧ ending.sw.cache.evWait = []
      ∧ ending.ao.blockHolds = [⟨4, 6, 16, 0, [6]⟩] ∧ 16 ≤ ending.ao.refClk
      ∧ ending.sw.life.fuse.done = false ∧ ending.sw.life.fuse.rdReq = true
      ∧ ending.sw.life.fuse.since + 1024 ≤ ending.ao.refClk := by decide +kernel

/-- The slice with those software resets, whose 2 µs have passed, and those units held. -/
def dueResets (l : List SwReset) (b : List BlockHold) : State := withAo fun a => { a with swReset := l, blockHolds := b, refClk := 200 }

theorem witness_SoftwareResetComesDue :
    (dueReset 1 0).ao.swReset = [⟨6, 1, 0, 200⟩] ∧ (200 : Nat) ≠ 0 ∧ 200 ≤ (dueReset 1 0).ao.refClk ∧ (dueReset 1 0).ao.hold = none
      ∧ (dueReset 2 7).ao.blockHolds = [] ∧ (dueReset 2 7).ao.swReset = [⟨6, 2, 7, 200⟩]
      ∧ (dueResets [⟨6, 2, 5, 200⟩] [⟨4, 5, 216, 0, [5]⟩]).ao.blockHolds = [⟨4, 5, 216, 0, [5]⟩]
      ∧ (dueResets [⟨6, 2, 5, 200⟩, ⟨5, 2, 4, 200⟩] []).ao.swReset = [⟨6, 2, 5, 200⟩, ⟨5, 2, 4, 200⟩]
      ∧ (dueResets [⟨6, 2, 5, 200⟩, ⟨5, 2, 4, 200⟩] []).ao.blockHolds = [] ∧ (5 : BitVec 3) ≠ 4 := by decide

theorem witness_ResetCountersChangeOnlyAtReleases :
    ∃ t, exec .resetRelease { released (hold 3 1 false) with ao := { (released (hold 3 1 false)).ao with mode := 0 } } = .next t
      ∧ t.ao.counts ≠ (released (hold 3 1 false)).ao.counts := ⟨_, rfl, by decide +kernel⟩

/-- A cold reset has ended: every tier filled, the fuse read done. -/
def filled : State := withSw fun s => { s with life := { s.life with fuse := ⟨false, 2047, true, 0⟩, filled := 15 } }

/-- 0x02000001 has VALID and BAD and even parity, and marks spare row 0 of subarray 0 bad (R387). -/
theorem witness_FuseWordsThenTheLehr :
    State.reset.awake = true ∧ State.reset.sw.life.fuse.done = false ∧ State.reset.sw.life.fuse.rdReq = true
      ∧ State.reset.sw.port.isolate = .none ∧ State.reset.sw.life.fuse.addr ≠ 2047
      ∧ (withSw fun s => { s with life := { s.life with fuse := { s.life.fuse with addr := 2047 } } }).sw.life.fuse.addr = 2047
      ∧ bitAt (0 : BitVec 32) 0 = false ∧ fuseOk 0x02000001 = true ∧ bitAt (0x02000001 : BitVec 32) 25 = true
      ∧ filled.sw.life.fuse.rdReq = false ∧ filled.awake = true ∧ filled.sw.life.lehrUp = false ∧ filled.sw.life.fuse.done = true
      ∧ filled.sw.life.filled = 15 ∧ filled.sw.life.warm = false := by decide

/-- Tier 0 of the slice in the state given. -/
def tier0 (x : Tier) (m : Option Nat) : State := withAo fun a => { a with tiers := a.tiers.set 0 x, moving := m, refClk := 1000 }

theorem witness_TierPowerSteps :
    State.reset.ao.nextTransition State.reset.params = some (0 : BitVec 2).toNat
      ∧ ({ (tier0 ⟨.on, true, true, 4, 0, false, none⟩ none).ao with tierOff := 1 } : AlwaysOn).nextTransition State.reset.params
          = some (0 : BitVec 2).toNat
      ∧ ((tier0 ⟨.poweringUp, true, false, 0, 0, false, none⟩ (some 0)).ao.tier 0).req = true
      ∧ ((tier0 ⟨.poweringUp, true, false, 0, 0, false, none⟩ (some 0)).ao.tier 0).ack = false
      ∧ ((tier0 ⟨.poweringDown, false, true, 0, 0, false, none⟩ (some 0)).ao.tier 0).falling = true
      ∧ ((tier0 ⟨.poweringUp, true, true, 3, 0, false, none⟩ (some 0)).ao.tier 0).rising = true
      ∧ 0 + 2 * 3 * State.reset.params.refMHz ≤ (tier0 ⟨.poweringUp, true, true, 3, 0, false, none⟩ (some 0)).ao.refClk
      ∧ ((tier0 ⟨.poweringDown, true, true, 1, 0, false, none⟩ (some 0)).ao.tier 0).falling = true
      ∧ ((tier0 ⟨.poweringUp, true, true, 4, 0, false, none⟩ (some 0)).ao.tier 0).st = .poweringUp
      ∧ 0 + 8 * State.reset.params.refMHz ≤ (tier0 ⟨.poweringUp, true, true, 4, 0, false, none⟩ (some 0)).ao.refClk := by decide

/-- Tier 0 waits for its fill, and is being filled since clk 0. -/
def filling (at_ : Option Nat) : State :=
  { tier0 ⟨.filling, true, true, 4, 0, true, at_⟩ none with
    sw := { State.reset.sw with
      life := { State.reset.sw.life with fuse := ⟨false, 2047, true, 0⟩ }
      fr := { State.reset.sw.fr with clk := 98304 } } }

/-- Row 0 of tier 0, bank 0, subarray 0 has been retired. -/
def retiredIn (s : State) : State := { s with sw := { s.sw with rep := { s.sw.rep with retired := [⟨0, 0, 0, 0, 0⟩] } } }

theorem witness_TierFillZeroesTheTier :
    (filling none).ao.hold = none ∧ (filling none).ao.asleep = false ∧ (filling none).sw.life.fuse.done = true
      ∧ (filling none).sw.life.st ≠ .safe ∧ (filling none).sw.life.st ≠ .fenced ∧ (∀ x ∈ (filling none).ao.tiers, x.fillAt = none)
      ∧ ((filling none).ao.tier 0).ready = true ∧ (∀ j < 0, ((filling none).ao.tier j).ready = false)
      ∧ ((filling (some 0)).ao.tier 0).fillAt = some 0 ∧ 0 + 98304 ≤ (filling (some 0)).sw.fr.clk
      ∧ (∃ p ∈ (retiredIn (filling (some 0))).sw.rep.retired, p.tier = 0 ∧ ∃ k < p.size, p.loc k = 0)
      ∧ (∀ p ∈ (filling (some 0)).sw.rep.retired, p.tier = 0 → ∀ k < p.size, p.loc k ≠ 32)
      ∧ Sparse.wf 0 (filling (some 0)).sw.arr.tags ∧ Sparse.wf 0 (filling (some 0)).sw.arr.mword
      ∧ Memory.wf (filling (some 0)).sw.arr.data := by decide

theorem witness_LogicPowerOffKeepsTheSlice :
    (withAo fun a => { a with sleepReq := true }).ao.sleepReq = true ∧ (withAo fun a => { a with sleepReq := true }).awake = true
      ∧ State.reset.ao.moving = none ∧ State.reset.sw.walk = none ∧ State.reset.sw.life.sweep = none
      ∧ State.reset.sw.life.st ≠ .running ∧ State.reset.sw.life.st ≠ .quiescing
      ∧ Sparse.wf EvtSrc.reset State.reset.sw.evt.src ∧ (State.reset.sw.src 7).fresh = 0
      ∧ (withAo fun a => { a with asleep := true, sleepAck := true }).ao.asleep = true
      ∧ (withAo fun a => { a with asleep := true, sleepAck := true }).ao.hold = none := by decide

theorem witness_GtimeAndDroops :
    State.reset.awake = true ∧ (held 3 1 false).awake = false ∧ (4 : BitVec 3).toNat < State.reset.sw.tel.live.droop.length := by
  decide

/-! ## Witnesses: frames, events, the window -/

/-- The report of a frame of 8,192 slots is due. -/
def reporting : State := withSw fun s => { s with fr := { s.fr with report := [(⟨0, 0, 8192, 0, 0, 8192, 0⟩, 8)], clk := 8 } }

theorem witness_TicksSlotReportTrace :
    State.reset.sw.fr.pos = 0 ∧ (withSw fun s => { s with fr := { s.fr with pos := 999, aligned := true } }).sw.fr.pos ≠ 0
      ∧ (withSw fun s => { s with fr := { s.fr with tickFrom := some 0, clk := 1064 } }).sw.fr.tickFrom = some 0
      ∧ 0 + 1000 + 64 ≤ (withSw fun s => { s with fr := { s.fr with tickFrom := some 0, clk := 1064 } }).sw.fr.clk
      ∧ reporting.sw.fr.report = [(⟨0, 0, 8192, 0, 0, 8192, 0⟩, 8)] ∧ 8 ≤ reporting.sw.fr.clk ∧ reporting.sw.pmc.held = false
      ∧ 8192 < 2 ^ 14 ∧ State.reset.sw.port.isolate = .none ∧ State.reset.ao.held 4 = false := by decide

/-- A boundary is due with a switch to copy B armed for gtime 5. -/
def boundary (g : BitVec 64) : State :=
  withSw fun s => { s with fr := { s.fr with due := true, gtime := g, switch := some ⟨.b, 5, 0⟩, copyB := [(0, 0x80000000)] } }

theorem witness_FrameBoundaryActionsAndSwitch :
    (boundary 5).awake = true ∧ (boundary 5).sw.fr.due = true ∧ State.reset.sw.fr.due = false
      ∧ (boundary 5).sw.fr.switch = some ⟨.b, 5, 0⟩ ∧ (boundary 5).sw.fr.lenNext = none
      ∧ validCount ((boundary 5).sw.fr.copy .b) 1000 ≤ validCount ((boundary 5).sw.fr.copy .a) 1000 + 1000 / 8
      ∧ (5 : BitVec 64).toNat ≤ (boundary 5).sw.fr.gtime.toNat ∧ (boundary 4).sw.fr.gtime.toNat < (5 : BitVec 64).toNat
      ∧ (withSw fun s => { s with fr := { s.fr with due := true } }).sw.fr.switch = none := by decide

/-- TICK_LOST has been 1 since clk 0, in clk 8; the filters of the three wires have FILT 7. -/
def ticksLost : State := withSw fun s => { s with fr := { s.fr with tickLost := true, clk := 8 } }

theorem witness_EventSourcesRise :
    ticksLost.awake = true ∧ (8 : Nat) = max 1 (fldN (ticksLost.sw.src (wireEvent .tickLost)).cfg 24 6) + 1
      ∧ (∀ w ∈ [Wire.tickLost, .mpAlert, .bor], 8 = max 1 (fldN (ticksLost.sw.src (wireEvent w)).cfg 24 6) + 1
        ∧ ticksLost.sw.evt.filtOut w ≠ true ∧ sget 0 ticksLost.sw.evt.filtAt (wireEvent w) + 8 ≤ ticksLost.sw.fr.clk)
      ∧ true = ticksLost.sw.fr.tickLost ∧ ticksLost.sw.fr.tickLostAt + 8 ≤ ticksLost.sw.fr.clk
      ∧ State.reset.sw.evt.filtOut .mpAlert = false
      ∧ State.reset.sw.fr.clk < sget 0 State.reset.sw.evt.filtAt (wireEvent .mpAlert) + 8
      ∧ stuck.awake = true ∧ stuck.sw.life.wdogWarned = false ∧ stuck.sw.life.wdog = some 0
      ∧ 0 + 25000 * stuck.params.refMHz ≤ stuck.ao.refClk ∧ stuck.sw.life.lehrUp = true
      ∧ (inState .config State.reset.sw).life.wdog = none := by decide

/-- Source 7 is pending and unmasked at bank `n`, which is enabled and has had it as its winner since clk 0. -/
def pendingAt (n : Nat) (cfg : BitVec 32) (signalled : Bool) : State :=
  withSw fun s => { inState .running s with
    evt := { s.evt with
      src := [(7, { EvtSrc.reset with pend := true, mask := false, occ := 2, cfg := cfg, routed := fld cfg 0 4 })]
      bank := [(n, ⟨true, signalled, 0⟩)], cand := [(n, 7, 0)] }
    port := { s.port with credOut := { s.port.credOut with io := 1 } }
    fr := { s.fr with clk := 4 } }

theorem witness_EventDelivery :
    (pendingAt 0 EvtSrc.cfgReset false).ao.hold = none ∧ (pendingAt 0 EvtSrc.cfgReset false).ao.asleep = false
      ∧ bankNum (.normal .lehr) < 2 ∧ bankNum .priv = 10
      ∧ (pendingAt 0 EvtSrc.cfgReset false).sw.life.lehrUp = true ∧ (pendingAt 0 EvtSrc.cfgReset false).sw.life.st ≠ .fenced
      ∧ ((pendingAt 0 EvtSrc.cfgReset false).sw.evt.bankAt 0).en = true
      ∧ ((pendingAt 0 EvtSrc.cfgReset false).sw.evt.bankAt 0).signalled = false
      ∧ (pendingAt 0 EvtSrc.cfgReset false).sw.evt.winner (bankNum (.normal .lehr)) = some 7
      ∧ (bankNum (.normal .lehr), 7, 0) ∈ (pendingAt 0 EvtSrc.cfgReset false).sw.evt.cand
      ∧ 0 + 4 ≤ (pendingAt 0 EvtSrc.cfgReset false).sw.fr.clk
      ∧ ((pendingAt 3 0x07000109 true).sw.evt.bankAt (bankNum (.fast .host0))).signalled = true
      ∧ (pendingAt 3 0x07000109 false).sw.life.st ≠ .fenced
      ∧ ((pendingAt 3 0x07000109 false).sw.evt.bankAt (bankNum (.fast .host0))).en = true
      ∧ ((pendingAt 3 0x07000109 false).sw.evt.bankAt (bankNum (.fast .host0))).signalled = false
      ∧ (pendingAt 3 0x07000109 false).sw.evt.winner (bankNum (.fast .host0)) = some 7
      ∧ (bankNum (.fast .host0), 7, 0) ∈ (pendingAt 3 0x07000109 false).sw.evt.cand
      ∧ (pendingAt 3 0x07000109 false).sw.port.free .io = true ∧ (pendingAt 3 0x07000109 false).sw.port.credOut.io ≠ 0
      ∧ (pendingAt 8 0x07000104 false).sw.fastWaits = false ∧ (pendingAt 8 0x07000104 false).sw.ioRespWaits = false
      ∧ ((pendingAt 8 0x07000104 false).sw.evt.bankAt (bankNum (.normal .host3))).en = true
      ∧ (pendingAt 8 0x07000104 false).sw.evt.winner (bankNum (.normal .host3)) = some 7
      ∧ (bankNum (.normal .host3), 7, 0) ∈ (pendingAt 8 0x07000104 false).sw.evt.cand := by decide

/-- Source 7 waits at the FAST bank of host 0, bank number 3, and the access reads or writes its registers. -/
def claimState (write : Bool) (off : Nat) (v : BitVec 32) (f : Sw → Sw) : State :=
  withSw fun _ => withAccess (access write off v) (f (pendingAt 3 0x07000109 true).sw)

theorem witness_EventClaimAndComplete :
    AtFront (claimState false 0x3020 0 id) false (access false 0x3020 0) 0x3020 0
      ∧ (claimState false 0x3020 0 id).sw.evt.winner (bankNum (bankOfOff 0x3020)) = some 7
      ∧ Sparse.wf EvtSrc.reset (claimState false 0x3020 0 id).sw.evt.src
      ∧ AtFront (claimState false 0x3000 0 id) false (access false 0x3000 0) 0x3000 0
      ∧ (claimState false 0x3000 0 id).sw.evt.winner (bankNum (bankOfOff 0x3000)) = none
      ∧ AtFront (claimState false 0x30E0 0 id) false (access false 0x30E0 0) 0x30E0 0
      ∧ (claimState false 0x30E0 0 id).sw.evt.winner (bankNum (bankOfOff 0x30E0)) = none := by
  refine ⟨⟨rfl, rfl, rfl⟩, by decide, by decide, ⟨rfl, rfl, rfl⟩, by decide, ⟨rfl, rfl, rfl⟩, by decide⟩

/-- Source 28 is active with the FAST bank of host 0 as its claimant. -/
def claimed (s : Sw) : Sw :=
  { s with evt := { s.evt with src := [(28, { EvtSrc.reset with active := true, claimant := some (.fast .host0) })] } }

theorem witness_EventClaimAndComplete_write :
    AtFront (claimState true 0x3024 28 claimed) true (access true 0x3024 28) 0x3024 28
      ∧ 1 ≤ fldN (28 : BitVec 32) 0 10 ∧ fldN (28 : BitVec 32) 0 10 ≤ 28
      ∧ ((claimState true 0x3024 28 claimed).sw.src 28).active = true
      ∧ ((claimState true 0x3024 28 claimed).sw.src 28).claimant = some (bankOfOff 0x3024)
      ∧ AtFront (claimState true 0x30E4 28 claimed) true (access true 0x30E4 28) 0x30E4 28
      ∧ ((claimState true 0x30E4 28 claimed).sw.src 28).claimant ≠ some (bankOfOff 0x30E4)
      ∧ Sparse.wf EvtSrc.reset (claimState true 0x3024 28 claimed).sw.evt.src := by
  refine ⟨⟨rfl, rfl, rfl⟩, by decide, by decide, by decide, by decide, ⟨rfl, rfl, rfl⟩, by decide, by decide⟩

theorem witness_EventBitmapWrites :
    (∀ off ∈ [0x2000, 0x203C, 0x2040, 0x207C, 0x2080, 0x20BC, 0x20C0, 0x20FC],
      AtFront (withSw fun s => withAccess (access true off 0x10000002) s) true (access true off 0x10000002) off 0x10000002)
      ∧ Sparse.wf EvtSrc.reset State.reset.sw.evt.src ∧ Named 0 0x10000002 1 ∧ Named 0 0x10000002 28 ∧ ¬ Named 1 0x10000002 28
      ∧ ¬ Named 0 0x10000002 0 := by
  refine ⟨fun off _ => atFront true off _, by decide, ?_, ?_, ?_, ?_⟩ <;> unfold Named <;> decide

theorem witness_MailboxWindowRows :
    (∀ off ∈ [0x1000, 0x133C, 0x1080, 0x1380, 0x1088, 0x1388],
      AtFront (withSw fun s => withAccess (access true off 1) s) true (access true off 1) off 1)
      ∧ (State.reset.sw.mbx.ch (chanOf 0x1080)).st = .idle
      ∧ ((withSw fun s => running .boot (cmd 1 []) s).sw.mbx.ch (chanOf 0x1080)).st = .running :=
  ⟨fun off _ => atFront true off _, by decide, by decide⟩

theorem witness_AlwaysOnWindowRows :
    (∀ off ∈ [0x104, 0x7024, 0x7020, 0x7030], ∀ v : BitVec 32,
      AtFront (withSw fun s => withAccess (access true off v) s) true (access true off v) off v)
      ∧ fldN (0 : BitVec 32) 16 2 = 0 ∧ fldN (0x10000 : BitVec 32) 16 2 = 1 ∧ fldN (0x20000 : BitVec 32) 16 2 = 2
      ∧ State.reset.ao.tiers.length = 4 ∧ (1 : BitVec 32).getLsbD 0 = true ∧ State.reset.ao.tierOff.getLsbD 0 = false
      ∧ ((tier0 ⟨.poweringUp, true, true, 3, 0, false, none⟩ (some 0)).ao.tier 0).st = .poweringUp := by
  exact ⟨fun off _ v => atFront true off v, by decide⟩

theorem witness_CounterAndPlainRegisterWrites :
    (∀ off ∈ [0x4080, 0x4B9C, 0x3008, 0x30E8, 0x7018, 0x701C, 0x8004, 0x188],
      AtFront (withSw fun s => withAccess (access true off 5) s) true (access true off 5) off 5)
      ∧ (5 : BitVec 32).getLsbD 2 = true
      ∧ AtFront (withSw fun s => withAccess (access false 0x140 0) s) false (access false 0x140 0) 0x140 0
      ∧ State.reset.sw.aptBefore 0x10 0 = false := by
  exact ⟨fun off _ => atFront true off _, by decide, atFront false _ _, by decide⟩

/-! ## Witnesses: sync objects and notifies -/

/-- A sync operation on object 16,383 accepted in clk 0 waits for clk 8. -/
def synState (op : SynOp) (v : BitVec 512) : State :=
  withSw fun s => { s with pipe := { s.pipe with syn := [⟨0, ioAt 7 v, 16383, op⟩] }, fr := { s.fr with clk := 8 } }

theorem witness_SyncWindowOperations :
    (synState .signal 1).awake = true ∧ (synState .signal 1).sw.pipe.syn = [⟨0, ioAt 7 1, 16383, .signal⟩]
      ∧ 0 + 8 ≤ (synState .signal 1).sw.fr.clk ∧ (synState .reset 0).sw.pipe.syn = [⟨0, ioAt 7 0, 16383, .reset⟩]
      ∧ (synState .arm 0).sw.pipe.syn = [⟨0, ioAt 7 0, 16383, .arm⟩] ∧ bytesN (ioAt 7 0x80000000).payload 0 4 % 2 ^ 31 = 0
      ∧ bytesN (ioAt 7 0x80000001).payload 0 4 % 2 ^ 31 ≠ 0
      ∧ Sparse.wf SyncObj.zero (synState .signal 1).sw.syn.obj := by decide +kernel

/-- A template of nothing but zeros with a sync object. -/
def someTemplate : Template := ⟨0, false, 0, 0, 3, 0, 0, 1, false, 0, 0, 0, 0, 0, 0, 0, 0x4005⟩

/-- A close whose outputs have all completed. -/
def closed : RoEnt :=
  { id := 0, region := 1, ctx := 0, head := 0, t := someTemplate, owner := 0, lines := [], round := 0
    fl := ⟨false, false, false, false, false⟩, gtime := 0, at_ := 0, maxexp := 0, planned := true, todo := []
    status := false, open_ := 0, issuedAll := true, res := false, born := 0, said := true, tookFrom := none }

theorem witness_InternalSignalOfTheOldestClose :
    (withSw fun s => { s with gth := { s.gth with ro := [closed] } }).awake = true
      ∧ (withSw fun s => { s with gth := { s.gth with ro := [closed] } }).sw.domainDown = false
      ∧ State.reset.sw.gth.sigAt ≤ State.reset.sw.fr.clk ∧ closed.planned = true ∧ closed.issuedAll = true ∧ closed.open_ = 0
      ∧ closed.t.sync.getLsbD 14 = true ∧ State.reset.sw.pipe.syn = [] := by decide

/-- Object 3 fires, or its notify of kind `k` is the oldest of the queue, with every credit there is. -/
def notifying (k : BitVec 2) (q : List Notify) (pend : Bool) : State :=
  withSw fun s => { inState .running s with
    syn := { s.syn with obj := [(3, ⟨4, 4, false, pend, 7, k, 0x40, 2⟩)], nq := q }
    port := { s.port with credOut := ⟨1, 1, 1, 1, 1, 1⟩ } }

theorem witness_NotifiesAreQueuedAndSent :
    (notifying 1 [] true).awake = true ∧ (notifying 1 [] true).sw.domainDown = false
      ∧ (notifying 1 [] true).sw.syn.enqAt ≤ (notifying 1 [] true).sw.fr.clk ∧ (notifying 1 [] true).sw.syn.nq.length < 64
      ∧ Sparse.wf SyncObj.zero (notifying 1 [] true).sw.syn.obj ∧ ((notifying 1 [] true).sw.syncObj 3).pend = true
      ∧ (∀ k < 3, ((notifying 1 [] true).sw.syncObj k).pend = false)
      ∧ (notifying 1 [⟨0, 3, 4, false, 0⟩] false).sw.syn.nq = [⟨0, 3, 4, false, 0⟩]
      ∧ ((notifying 1 [⟨0, 3, 4, false, 0⟩] false).sw.syncObj 3).nkind = 1
      ∧ (notifying 1 [⟨0, 3, 4, false, 0⟩] false).sw.port.free .io = true
      ∧ (notifying 1 [⟨0, 3, 4, false, 0⟩] false).sw.port.credOut.io ≠ 0
      ∧ (notifying 1 [⟨0, 3, 4, false, 0⟩] false).sw.fastWaits = false
      ∧ ((notifying 2 [⟨0, 3, 4, false, 0⟩] false).sw.syncObj 3).nkind = 2
      ∧ ((notifying 3 [⟨0, 3, 4, false, 0⟩] false).sw.syncObj 3).nkind = 3
      ∧ (notifying 3 [⟨0, 3, 4, false, 0⟩] false).sw.isHome State.reset.params (laddrOf 0x40) = false
      ∧ (notifying 3 [⟨0, 3, 4, false, 0⟩] false).sw.sends = true ∧ (notifying 3 [⟨0, 3, 4, false, 0⟩] false).sw.datDue = false
      ∧ (notifying 3 [⟨0, 3, 4, false, 0⟩] false).sw.port.reqOut = none
      ∧ (notifying 3 [⟨0, 3, 4, false, 0⟩] false).sw.port.datOut = none
      ∧ (notifying 3 [⟨0, 3, 4, false, 0⟩] false).sw.port.credOut.req ≠ 0
      ∧ (notifying 3 [⟨0, 3, 4, false, 0⟩] false).sw.port.credOut.dat ≠ 0 := by decide

/-! ## Witnesses: taking commands -/

/-- A command buffer with its CRC: OPCODE, LEN, tag 0, SEQ 1 and no payload. -/
def buffer (op len : Nat) : BitVec 512 :=
  BitVec.ofNat 512 (op + len * 65536 + 2 ^ 48 + bufCrc (BitVec.ofNat 512 (op + len * 65536 + 2 ^ 48)) * 2 ^ 64)

/-- Channel `n` is POSTED with a buffer, in BOOT; its next reading is due when `k` says so. -/
def posted (n : BitVec 2) (b : BitVec 512) (tries : Nat) (k : Option Nat) : State :=
  withSw fun s => (inState .boot s).onCh n fun c => { c with st := .posted, seq := 1, cmd := b, rereads := tries, rereadAt := k }

/-- The check value of CRC-32 (IEEE 802.3): the nine digits "123456789". -/
theorem test_crc_check_value : crc32 [0x31, 0x32, 0x33, 0x34, 0x35, 0x36, 0x37, 0x38, 0x39] = 0xCBF43926 := by decide +kernel

theorem witness_FirmwareTakesACommand :
    (posted 2 (buffer 1 0) 0 none).awake = true ∧ (posted 2 (buffer 1 0) 0 none).sw.life.lehrUp = true
      ∧ (posted 2 (buffer 1 0) 0 none).sw.mbx.busy = false ∧ ((posted 2 (buffer 1 0) 0 none).sw.mbx.ch 2).st = .posted
      ∧ (posted 2 (buffer 1 0) 0 none).sw.mbx.next = some 2 ∧ ((posted 2 (buffer 1 0) 0 none).sw.mbx.ch 2).bufOk = true
      ∧ (posted 2 (buffer 1 0) 0 none).sw.checkBuf State.reset.ao 2 (buffer 1 0) = none
      ∧ (posted 2 (buffer 3 0) 0 none).sw.checkBuf State.reset.ao 2 (buffer 3 0) = some 0x01
      ∧ bytesN (buffer 1 0) 0 2 = 0x0001
      ∧ ((posted 2 (buffer 1 0) 0 (some 0)).sw.mbx.ch 2).rereadAt = some 0
      ∧ ((posted 2 0 0 none).sw.mbx.ch 2).bufOk = false ∧ (posted 2 0 0 none).sw.mbx.next = some 2
      ∧ ((posted 2 0 2 (some 0)).sw.mbx.ch 2).bufOk = false ∧ 2 ≤ ((posted 2 0 2 (some 0)).sw.mbx.ch 2).rereads := by
  decide +kernel

/-- Channel 0 runs QOS_ADMIT and channel 2 is POSTED with QOS_RELEASE, which conflicts with it, or with SLICE_INFO. -/
def clashing (op len : Nat) : State :=
  withSw fun s => (running .config (cmd 0x0040 []) s).onCh 2 fun c => { c with st := .posted, seq := 1, cmd := buffer op len }

theorem witness_FirmwareTakesACommand_conflict :
    (clashing 0x41 4).sw.mbx.busy = true ∧ (clashing 0x41 4).sw.clashes 2 = true ∧ (clashing 0x41 4).sw.mbx.next = some 2
      ∧ ((clashing 0x41 4).sw.mbx.ch 2).bufOk = true ∧ (clashing 1 0).sw.mbx.busy = true ∧ (clashing 1 0).sw.clashes 2 = false
      ∧ (clashing 1 0).sw.mbx.next = some 2 ∧ fld ((clashing 0x41 4).sw.mbx.ch 2).cmd 32 16 = State.reset.ao.hostEpoch.getD 2 0
      ∧ ∃ r, cmdRow (bytesN ((clashing 0x41 4).sw.mbx.ch 2).cmd 0 2) = some r ∧ (clashing 0x41 4).sw.otherRuns 2 r.group = true
          ∧ byteN ((clashing 0x41 4).sw.mbx.ch 2).cmd 2 = r.len ∧ (r.ch0 = true → (2 : BitVec 2) = 0) := by
  refine ⟨by decide +kernel, by decide +kernel, by decide +kernel, by decide +kernel, by decide +kernel, by decide +kernel,
    by decide +kernel, by decide +kernel, ⟨0x0041, 4, 4, 60, false, .admission⟩, by decide +kernel⟩

theorem witness_Channel0Commands :
    (posted 1 (buffer 0xF8 4) 0 none).sw.mbx.next = some 1 ∧ ((posted 1 (buffer 0xF8 4) 0 none).sw.mbx.ch 1).bufOk = true
      ∧ (posted 1 (buffer 0xF8 4) 0 none).sw.mbx.busy = false
      ∧ fld (buffer 0xF8 4) 32 16 = State.reset.ao.hostEpoch.getD 1 0
      ∧ (∃ r, cmdRow (bytesN (buffer 0xF8 4) 0 2) = some r ∧ byteN (buffer 0xF8 4) 2 = r.len)
      ∧ ((posted 0 (buffer 0xF8 4) 0 none).sw.mbx.ch 0).bufOk = true ∧ (posted 0 (buffer 0xF8 4) 0 none).sw.mbx.next = some 0 := by
  refine ⟨by decide +kernel, by decide +kernel, by decide +kernel, by decide +kernel, ?_, by decide +kernel, by decide +kernel⟩
  exact ⟨⟨0x00F8, 4, 0, 3, true, .none⟩, by decide +kernel, by decide +kernel⟩

/-- A slice in state `st` in which channel 0 runs a command. -/
abbrev runs (st : SliceSt) (op : Nat) (fs : List (Nat × Nat × Nat)) (f : Sw → Sw) : State :=
  withSw fun s => running st (cmd op fs) (f s)

theorem witness_ReportsOfTheSlice :
    CommandReady (runs .boot 0x0001 [] id) 0 0x0001 (cmd 0x0001 [])
      ∧ CommandReady (runs .running 0x0001 [] id) 0 0x0001 (cmd 0x0001 []) ∧ (runs .running 0x0001 [] id).sw.walk = none
      ∧ CommandReady (runs .safe 0x00F0 [] id) 0 0x00F0 (cmd 0x00F0 [])
      ∧ CommandReady (runs .config 0x0090 [(0, 1, 2)] id) 0 0x0090 (cmd 0x0090 [(0, 1, 2)])
      ∧ byteN (cmd 0x0090 [(0, 1, 2)]).pay 0 = 2
      ∧ CommandReady (runs .fenced 0x0090 [(0, 1, 3)] id) 0 0x0090 (cmd 0x0090 [(0, 1, 3)])
      ∧ byteN (cmd 0x0090 [(0, 1, 3)]).pay 0 = 3
      ∧ CommandReady (runs .config 0x0081 [] id) 0 0x0081 (cmd 0x0081 [])
      ∧ (runs .config 0x0081 [] id).sw.rep.log = [] ∧ (runs .config 0x0081 [] id).sw.rep.bad = [] :=
  ⟨ready (by decide +kernel), ready (by decide +kernel), rfl, ready (by decide +kernel), ready (by decide +kernel), by decide +kernel,
    ready (by decide +kernel), by decide +kernel, ready (by decide +kernel), rfl, rfl⟩

/-- A slice that runs, with every tier ON, whose slot runs a background unit. -/
def inBackground (f : Sw → Sw) : State :=
  { State.reset with
    ao := { State.reset.ao with tiers := List.replicate 4 ⟨.on, true, true, 4, 0, false, none⟩ }
    sw := f (inState .running State.reset.sw) }

/-- Nothing but the staged requests is under way, as a check. -/
def isQuietBut (s : Sw) (l : List Staged) : Bool := @decide (QuietBut s l) (by delta QuietBut; infer_instance)

/-- It is a background slot, as a check. -/
def isBackground (s : State) : Bool :=
  s.awake && isQuietBut s.sw [] && s.sw.life.fatal.isNone && decide (s.sw.choose s.params s.ao = .background)

theorem backgroundSlot {s : State} (h : isBackground s = true) : BackgroundSlot s := by
  simp only [isBackground, isQuietBut, Bool.and_eq_true, decide_eq_true_eq, Option.isNone_iff_eq_none] at h
  exact ⟨h.1.1.1, ⟨h.1.1.2, h.1.2⟩, h.2⟩

/-- The last unit of a snapshot and of a telemetry sample. -/
def lastUnits (m n : Nat) : State := inBackground fun s => { s with pmc := { s.pmc with units := m }, tel := { s.tel with units := n } }

theorem witness_ReportsOfTheSlice_units :
    BackgroundSlot (lastUnits 0 4) ∧ BackgroundSlot (lastUnits 11 4) ∧ (lastUnits 11 4).sw.pmc.units < 12
      ∧ Sparse.wf 0 (lastUnits 11 4).sw.pmc.snap ∧ BackgroundSlot (lastUnits 12 2) ∧ BackgroundSlot (lastUnits 12 3)
      ∧ (lastUnits 12 3).sw.pmc.units = 12 ∧ (lastUnits 12 3).sw.tel.units < 4 :=
  ⟨backgroundSlot (by decide +kernel), backgroundSlot (by decide +kernel), by decide, by decide, backgroundSlot (by decide +kernel),
    backgroundSlot (by decide +kernel), rfl, by decide⟩

/-! ## Witnesses: lifecycle -/

/-- SLICE_START with 1,024 agents and a snoop time-out exponent of 24. -/
def startOf : List (Nat × Nat × Nat) := [(0, 2, 1024), (2, 1, 24)]

/-- Every tier is ON. -/
def allOn (s : State) : State := { s with ao := { s.ao with tiers := List.replicate 4 ⟨.on, true, true, 4, 0, false, none⟩ } }

/-- The map is committed. -/
def mapped (s : Sw) : Sw := { s with map := { s.map with committed := true, mine := [0] } }

/-- The parameters of SLICE_START are stored. -/
def started (s : Sw) : Sw :=
  { mapped s with life := { s.life with agents := 1024, snpExp := 24 }, port := { s.port with crdGiven := true } }

theorem witness_StartNeedsEveryTier :
    CommandReady (runs .config 0x0002 startOf id) 0 0x0002 (cmd 0x0002 startOf)
      ∧ 1 ≤ bytesN (cmd 0x0002 startOf).pay 0 2 ∧ bytesN (cmd 0x0002 startOf).pay 0 2 ≤ 1024
      ∧ 12 ≤ byteN (cmd 0x0002 startOf).pay 2 ∧ byteN (cmd 0x0002 startOf).pay 2 ≤ 24
      ∧ (∃ x ∈ (runs .config 0x0002 startOf id).ao.tiers, x.st ≠ .on)
      ∧ CommandReady (allOn (runs .quiesced 0x0002 startOf fun s => { started s with life := { (started s).life with sweep := some 0 } }))
          0 0x0002 (cmd 0x0002 startOf)
      ∧ bytesN (cmd 0x0002 startOf).pay 0 2 = (runs .quiesced 0x0002 startOf started).sw.life.agents :=
  ⟨ready (by decide +kernel), by decide +kernel, by decide +kernel, by decide +kernel, by decide +kernel, by decide +kernel,
    ready (by decide +kernel), by decide +kernel⟩

theorem witness_SliceStartRuns :
    CommandReady (allOn (runs .config 0x0002 startOf mapped)) 0 0x0002 (cmd 0x0002 startOf)
      ∧ (allOn (runs .config 0x0002 startOf mapped)).sw.map.committed = true
      ∧ (allOn (runs .config 0x0002 startOf mapped)).sw.life.sweep = none
      ∧ (∀ x ∈ (allOn (runs .config 0x0002 startOf mapped)).ao.tiers, x.st = .on)
      ∧ (allOn (runs .config 0x0002 startOf mapped)).sw.port.crdGiven = false
      ∧ CommandReady (allOn (runs .quiesced 0x0002 startOf started)) 0 0x0002 (cmd 0x0002 startOf)
      ∧ (allOn (runs .quiesced 0x0002 startOf started)).sw.port.crdGiven = true
      ∧ byteN (cmd 0x0002 startOf).pay 2 = (allOn (runs .quiesced 0x0002 startOf started)).sw.life.snpExp
      ∧ CommandReady (allOn (runs .config 0x0002 [(0, 2, 1025), (2, 1, 12)] mapped)) 0 0x0002 (cmd 0x0002 [(0, 2, 1025), (2, 1, 12)])
      ∧ 1024 < bytesN (cmd 0x0002 [(0, 2, 1025), (2, 1, 12)]).pay 0 2 :=
  ⟨ready (by decide +kernel), by decide +kernel, by decide +kernel, by decide +kernel, by decide +kernel, ready (by decide +kernel),
    by decide +kernel, by decide +kernel, ready (by decide +kernel), by decide +kernel⟩

theorem witness_QuiesceCompletesWhenEmpty :
    CommandReady (runs .running 0x0003 [] id) 0 0x0003 (cmd 0x0003 [])
      ∧ (runs .quiescing 0x0003 [] fun s => { s with life := { s.life with quiescing := some 0 } }).awake = true
      ∧ (runs .quiescing 0x0003 [] fun s => { s with life := { s.life with quiescing := some 0 } }).sw.life.quiescing = some 0
      ∧ ((runs .quiescing 0x0003 [] fun s => { s with life := { s.life with quiescing := some 0 } }).sw.mbx.ch 0).run
          = some (cmd 0x0003 [])
      ∧ State.reset.sw.q.req = [] ∧ State.reset.sw.q.io = [] ∧ State.reset.sw.q.gth = [] ∧ State.reset.sw.home.txns = []
      ∧ State.reset.sw.gth.ro = [] ∧ State.reset.sw.syn.nq = [] ∧ State.reset.sw.cache.ev = [] ∧ State.reset.sw.cache.evWait = []
      ∧ (∀ w, State.reset.sw.walk = some w → w.held = true) ∧ (∀ e ∈ State.reset.sw.syn.obj, e.2.pend = false) :=
  ⟨ready (by decide +kernel), rfl, rfl, rfl, rfl, rfl, rfl, rfl, rfl, rfl, rfl, rfl, nofun, nofun⟩

theorem witness_FenceAndResetCommands :
    CommandReady (runs .config 0x0004 [(0, 2, 0xF3A5)] id) 0 0x0004 (cmd 0x0004 [(0, 2, 0xF3A5)])
      ∧ bytesN (cmd 0x0004 [(0, 2, 0xF3A5)]).pay 0 2 = 0xF3A5
      ∧ CommandReady (runs .quiesced 0x0004 [] id) 0 0x0004 (cmd 0x0004 []) ∧ bytesN (cmd 0x0004 []).pay 0 2 ≠ 0xF3A5
      ∧ CommandReady (runs .quiesced 0x0005 [(0, 1, 2), (1, 1, 7), (2, 2, 0x5A3C)] id) 0 0x0005 (cmd 0x0005 [(0, 1, 2), (1, 1, 7), (2, 2, 0x5A3C)])
      ∧ bytesN (cmd 0x0005 [(0, 1, 2), (1, 1, 7), (2, 2, 0x5A3C)]).pay 2 2 = 0x5A3C
      ∧ CommandReady (runs .fenced 0x0005 [(2, 2, 0x5A3C)] id) 0 0x0005 (cmd 0x0005 [(2, 2, 0x5A3C)])
      ∧ CommandReady (runs .running 0x0005 [] id) 0 0x0005 (cmd 0x0005 []) ∧ bytesN (cmd 0x0005 []).pay 2 2 ≠ 0x5A3C :=
  ⟨ready (by decide +kernel), by decide +kernel, ready (by decide +kernel), by decide +kernel, ready (by decide +kernel),
    by decide +kernel, ready (by decide +kernel), ready (by decide +kernel), by decide +kernel⟩

/-! ## Witnesses: configuration -/

/-- Every staging entry is marked, and entry 1,023 names the slice. -/
def staged (s : Sw) : Sw :=
  { s with map := { s.map with marks := List.range 1024, staging := (List.range 1023).map fun g => (g, 5) } }

theorem witness_InterleaveSetStagesAndCommits :
    CommandReady (runs .config 0x0010 [(0, 2, 976), (2, 1, 48), (51, 1, 127)] id) 0 0x0010 (cmd 0x0010 [(0, 2, 976), (2, 1, 48), (51, 1, 127)])
      ∧ byteN (cmd 0x0010 [(0, 2, 976), (2, 1, 48), (51, 1, 127)]).pay 3 = 0
      ∧ CommandReady (runs .quiesced 0x0010 [(3, 1, 1)] staged) 0 0x0010 (cmd 0x0010 [(3, 1, 1)])
      ∧ byteN (cmd 0x0010 [(3, 1, 1)]).pay 3 = 1 ∧ byteN (cmd 0x0010 [(3, 1, 1)]).pay 2 = 0
      ∧ (runs .quiesced 0x0010 [(3, 1, 1)] staged).sw.map.marks.length = 1024
      ∧ (∃ g < 1024, sget 0 (runs .quiesced 0x0010 [(3, 1, 1)] staged).sw.map.staging g = State.reset.params.sliceIndex)
      ∧ CommandReady (runs .config 0x0010 [(3, 1, 1)] id) 0 0x0010 (cmd 0x0010 [(3, 1, 1)])
      ∧ (runs .config 0x0010 [(3, 1, 1)] id).sw.map.marks.length ≠ 1024 :=
  ⟨ready (by decide +kernel), by decide +kernel, ready (by decide +kernel), by decide +kernel, by decide +kernel,
    by decide +kernel, ⟨1023, by decide, by decide +kernel⟩, ready (by decide +kernel), by decide +kernel⟩

/-- Copy B holds 16 background entries. -/
def background (s : Sw) : Sw := { s with fr := { s.fr with copyB := (List.range 16).map fun i => (i, 0x1C0) } }

/-- Eleven entries from 8,181 of copy B; entry 0 is a background entry. -/
def loadOf : List (Nat × Nat × Nat) := [(0, 1, 1), (2, 2, 8181), (4, 2, 11), (8, 4, 0x1C0)]

theorem witness_StakeAndFrameCommands :
    CommandReady (runs .running 0x0030 loadOf id) 0 0x0030 (cmd 0x0030 loadOf)
      ∧ copyOf (byteN (cmd 0x0030 loadOf).pay 0) ≠ (runs .running 0x0030 loadOf id).sw.fr.active
      ∧ (∀ w, (runs .running 0x0030 loadOf id).sw.fr.switch = some w → w.dest ≠ .b)
      ∧ (∀ i < 11, entryOk (fld (cmd 0x0030 loadOf).pay (64 + 32 * i) 32) = true)
      ∧ CommandReady (runs .config 0x0030 [(1, 1, 1), (4, 2, 8192)] id) 0 0x0030 (cmd 0x0030 [(1, 1, 1), (4, 2, 8192)])
      ∧ copyOf (byteN (cmd 0x0030 [(1, 1, 1), (4, 2, 8192)]).pay 0) = State.reset.sw.fr.active
      ∧ CommandReady (runs .running 0x0031 [(0, 1, 1)] background) 0 0x0031 (cmd 0x0031 [(0, 1, 1)])
      ∧ 16 ≤ bgCount ((runs .running 0x0031 [(0, 1, 1)] background).sw.fr.copy .b) 1000
      ∧ lockedCount ((runs .running 0x0031 [(0, 1, 1)] background).sw.fr.copy .b) 1000 + State.reset.sw.qos.admitted.sumSlots
          ≤ 9 * 1000 / 10
      ∧ CommandReady (runs .config 0x0032 [(0, 2, 512)] id) 0 0x0032 (cmd 0x0032 [(0, 2, 512)])
      ∧ CommandReady (runs .quiesced 0x0032 [(0, 2, 8192)] id) 0 0x0032 (cmd 0x0032 [(0, 2, 8192)])
      ∧ State.reset.sw.fr.everSwitched = false ∧ State.reset.sw.fr.lk 512 + State.reset.sw.qos.admitted.sumSlots ≤ 9 * 512 / 10
      ∧ State.reset.sw.qos.admitted.sumMiss ≤ capLines State.reset.sw.mp.level 512 :=
  ⟨ready (by decide +kernel), by decide +kernel, nofun, by decide +kernel, ready (by decide +kernel), by decide +kernel,
    ready (by decide +kernel), by decide +kernel, by decide +kernel, ready (by decide +kernel), ready (by decide +kernel),
    by decide +kernel⟩

/-- Classes 0 to 3 have 16 reserved entries each. -/
def reserved (s : Sw) : Sw := { s with qos := { s.qos with cls := (List.range 4).map fun i => (i, ⟨0, 0, 16, 128, false⟩) } }

/-- QOS_ADMIT of class 63 with 16 reserved entries. -/
def admitOf : List (Nat × Nat × Nat) := [(0, 1, 63), (2, 2, 100), (6, 1, 16), (7, 1, 16)]

theorem witness_QosAdmitAndRelease :
    CommandReady (runs .running 0x0040 admitOf id) 0 0x0040 (cmd 0x0040 admitOf)
      ∧ State.reset.sw.fr.lk 1000 + (State.reset.sw.qos.withClass 63 (admitPar (cmd 0x0040 admitOf).pay)).admitted.sumSlots ≤ 9 * 1000 / 10
      ∧ (State.reset.sw.qos.withClass 63 (admitPar (cmd 0x0040 admitOf).pay)).admitted.sumMiss ≤ capLines State.reset.sw.mp.level 1000
      ∧ (State.reset.sw.qos.withClass 63 (admitPar (cmd 0x0040 admitOf).pay)).admitted.sumRsv ≤ 64
      ∧ CommandReady (runs .running 0x0040 admitOf reserved) 0 0x0040 (cmd 0x0040 admitOf)
      ∧ 64 < ((runs .running 0x0040 admitOf reserved).sw.qos.withClass 63 (admitPar (cmd 0x0040 admitOf).pay)).admitted.sumRsv
      ∧ (runs .running 0x0040 admitOf reserved).sw.qos.admitted.sumRsv
          < ((runs .running 0x0040 admitOf reserved).sw.qos.withClass 63 (admitPar (cmd 0x0040 admitOf).pay)).admitted.sumRsv
      ∧ CommandReady (runs .running 0x0041 [(0, 1, 63)] id) 0 0x0041 (cmd 0x0041 [(0, 1, 63)]) :=
  ⟨ready (by decide +kernel), by decide +kernel, by decide +kernel, by decide +kernel, ready (by decide +kernel), by decide +kernel,
    by decide +kernel, ready (by decide +kernel)⟩

/-- Region 63 is bound with TYPE 2, one line group long, in way 15. -/
def gatherRegion (s : Sw) : Sw := { mapped s with pin := { s.pin with regions := [(63, ⟨2, 0, 0, 1, 0x8000, 0, 1, .bound⟩)] } }

/-- Region 63 has a template. -/
def templated (s : Sw) : Sw := { gatherRegion s with gth := { s.gth with tmpl := [(63, { someTemplate with mode := 2 })] } }

/-- Channel 0 waits for TEMPLATE_APPLY. -/
def templateWaits (s : Sw) : Sw := { gatherRegion s with gth := { s.gth with tmplNext := [(0, 63, someTemplate)] } }

theorem witness_GatherTemplateTakesEffect :
    CommandReady (runs .running 0x0050 [(0, 1, 63), (5, 1, 3)] gatherRegion) 0 0x0050 (cmd 0x0050 [(0, 1, 63), (5, 1, 3)])
      ∧ (runs .running 0x0050 [(0, 1, 63), (5, 1, 3)] gatherRegion).sw.boundGather 63 = true
      ∧ sget 0 (gatherRegion State.reset.sw).gth.armed 63 = 0
      ∧ (templateOf (cmd 0x0050 [(0, 1, 63), (5, 1, 3)]).pay).ok = true
      ∧ CommandReady (runs .running 0x0050 [(0, 1, 63), (5, 1, 15)] gatherRegion) 0 0x0050 (cmd 0x0050 [(0, 1, 63), (5, 1, 15)])
      ∧ (templateOf (cmd 0x0050 [(0, 1, 63), (5, 1, 15)]).pay).ok = false
      ∧ (runs .running 0x0050 [] templateWaits).sw.gth.tmplNext = [(0, 63, someTemplate)]
      ∧ ((runs .running 0x0050 [] templateWaits).sw.mbx.ch 0).run = some (cmd 0x0050 [])
      ∧ (runs .running 0x0050 [] templateWaits).sw.contribInFlight 63 = false
      ∧ (runs .running 0x0050 [] templateWaits).sw.boundGather 63 = true :=
  ⟨ready (by decide +kernel), by decide +kernel, by decide +kernel, by decide +kernel, ready (by decide +kernel), by decide +kernel,
    rfl, rfl, by decide +kernel, by decide +kernel⟩

/-- The bank under calibration, its units so far, and the next scrub unit. -/
def marver (calBank : Option Nat) (calUnits unit : Nat) (calEn : Bool) : State :=
  inBackground fun s => { s with rep := { s.rep with calBank := calBank, calUnits := calUnits, unit := unit, calEn := calEn } }

theorem witness_ApertureSyncAndScrubCommands_units :
    BackgroundSlot (marver none 0 0 true) ∧ (marver none 0 0 true).sw.pmc.units = 12 ∧ (marver none 0 0 true).sw.tel.units = 4
      ∧ (marver none 0 0 true).sw.walk = none ∧ (marver none 0 0 true).sw.arrayUp (marver none 0 0 true).ao = true
      ∧ (marver none 0 0 true).sw.rep.calEn = true ∧ (marver none 0 0 true).sw.rep.calPend.getLsbD 0 = true
      ∧ (marver none 0 0 true).sw.rep.maxUnits = 0 ∧ (∀ a < 0, (marver none 0 0 true).sw.rep.calPend.getLsbD a = false)
      ∧ BackgroundSlot (marver (some 63) 31 0 true) ∧ (marver (some 63) 31 0 true).sw.rep.calBank = some 63
      ∧ (marver (some 63) 31 0 true).sw.rep.calPend.getLsbD 63 = true
      ∧ BackgroundSlot (marver none 0 0 false) ∧ (marver none 0 0 false).sw.rep.calWork = false
      ∧ (marver none 0 0 false).sw.arr.errs = [] ∧ (marver none 0 0 false).sw.arr.lost = []
      ∧ BackgroundSlot (marver none 0 1048575 false)
      ∧ tRetired ((marver none 0 1048575 false).sw.tag (locOf (1048575 % 65536) (1048575 / 65536))) = false :=
  ⟨backgroundSlot (by decide +kernel), rfl, rfl, rfl, by decide, rfl, by decide, rfl, by decide, backgroundSlot (by decide +kernel), rfl,
    by decide, backgroundSlot (by decide +kernel), by decide, rfl, rfl, backgroundSlot (by decide +kernel), by decide⟩

theorem witness_ApertureSyncAndScrubCommands :
    CommandReady (runs .running 0x0023 [(0, 8, 0x100000), (8, 1, 64)] id) 0 0x0023 (cmd 0x0023 [(0, 8, 0x100000), (8, 1, 64)])
      ∧ (runs .running 0x0023 [] fun s => { s with pin := { s.pin with aptNext := [(0, 1, 64)] } }).sw.pin.aptNext = [(0, 1, 64)]
      ∧ State.reset.sw.pin.aptOpen = []
      ∧ CommandReady (runs .config 0x0060 [(0, 2, 16383), (2, 2, 1), (5, 1, 3), (8, 8, 8)] id) 0 0x0060
          (cmd 0x0060 [(0, 2, 16383), (2, 2, 1), (5, 1, 3), (8, 8, 8)])
      ∧ checkSync State.reset.params State.reset.ao (runs .config 0x0060 [] id).sw
          (cmd 0x0060 [(0, 2, 16383), (2, 2, 1), (5, 1, 3), (8, 8, 8)]).pay = none
      ∧ Sparse.wf SyncObj.zero State.reset.sw.syn.obj
      ∧ CommandReady (runs .running 0x0080 [(0, 1, 3), (1, 1, 32)] id) 0 0x0080 (cmd 0x0080 [(0, 1, 3), (1, 1, 32)]) :=
  ⟨ready (by decide +kernel), rfl, rfl, ready (by decide +kernel), by decide +kernel, by decide +kernel, ready (by decide +kernel)⟩

/-! ## Witnesses: firmware -/

/-- The bytes of a number at an offset of an image. -/
def bytesAt (off n v : Nat) : List Host.Cell := (List.range n).map fun i => (off + i, BitVec.ofNat 8 (v / 256 ^ i))

/-- The bytes that are not 0, as an image holds them. -/
def imageOf (l : List Host.Cell) : List Host.Cell := l.filter fun c => c.2 != 0

/-- SHA-384 of the one-word body 0. -/
def bodyDigest : BitVec 384 := sha384 4 fun _ => 0

/-- The header of an image with a body of one word, and the digest given. -/
def header (digest : Nat) : List Host.Cell :=
  imageOf (bytesAt 0 4 0x5248454C ++ bytesAt 4 2 1 ++ bytesAt 10 1 2 ++ bytesAt 12 4 4
    ++ (List.range 48).map fun i => (24 + i, BitVec.ofNat 8 (digest / 256 ^ (47 - i))))

/-- A load with every word written, whose checks run. -/
def loading (image : List Host.Cell) (words : List Nat) : Sw → Sw := fun s =>
  { s with life := { s.life with fw := { Fw.reset with length := some 260, image := image, words := words, checking := true } } }

/-- FW_LOAD_BEGIN with LENGTH 260, and FW_LOAD_DATA at offset 256. -/
theorem witness_FirmwareLoadAndStart :
    CommandReady (runs .boot 0x00F8 [(0, 4, 260)] id) 0 0x00F8 (cmd 0x00F8 [(0, 4, 260)])
      ∧ CommandReady (runs .safe 0x00F9 [(0, 4, 256), (4, 8, 5)] (loading [] [])) 0 0x00F9 (cmd 0x00F9 [(0, 4, 256), (4, 8, 5)])
      ∧ (runs .safe 0x00F9 [(0, 4, 256), (4, 8, 5)] (loading [] [])).sw.life.fw.length = some 260
      ∧ Memory.wf (runs .safe 0x00F9 [(0, 4, 256), (4, 8, 5)] (loading [] [])).sw.life.fw.image
      ∧ CommandReady (runs .boot 0x00FA [] id) 0 0x00FA (cmd 0x00FA [])
      ∧ (runs .boot 0x00FA [] (loading [] [])).sw.life.fw.checking = true
      ∧ ((runs .boot 0x00FA [] (loading [] [])).sw.mbx.ch 0).run = some (cmd 0x00FA [])
      ∧ (runs .boot 0x00FA [] (loading [] [])).sw.life.fw.complete = false
      ∧ (runs .boot 0x00FA [] (loading [] (List.range 65))).sw.life.fw.complete = true
      ∧ (runs .boot 0x00FA [] (loading [] (List.range 65))).sw.life.fw.headerOk = false
      ∧ (runs .boot 0x00FA [] (loading (header 0) (List.range 65))).sw.life.fw.headerOk = true :=
  ⟨ready (by decide +kernel), ready (by decide +kernel), rfl, by decide +kernel, ready (by decide +kernel), rfl, rfl,
    by decide +kernel, by decide +kernel, by decide +kernel, by decide +kernel⟩

/-- A slice that fenced while the image was checked. -/
theorem witness_FirmwareLoadAndStart_fenced :
    (runs .fenced 0x00FA [] (loading [] [])).awake = true ∧ (runs .fenced 0x00FA [] (loading [] [])).sw.life.lehrUp = true
      ∧ (runs .fenced 0x00FA [] (loading [] [])).sw.life.fw.checking = true
      ∧ (runs .fenced 0x00FA [] (loading [] [])).sw.life.st = .fenced
      ∧ ((runs .fenced 0x00FA [] (loading [] [])).sw.mbx.ch 0).run = some (cmd 0x00FA []) := ⟨rfl, rfl, rfl, rfl, rfl⟩

/-- An image whose digest is not its body's fails check 4. -/
theorem witness_FirmwareLoadAndStart_notAuthentic :
    (runs .boot 0x00FA [] (loading (header 0) (List.range 65))).sw.life.fw.authentic = false := by
  unfold Fw.authentic
  have h : (Fw.bodyHash (runs .boot 0x00FA [] (loading (header 0) (List.range 65))).sw.life.fw
      ((runs .boot 0x00FA [] (loading (header 0) (List.range 65))).sw.life.fw.le 12 4)
    == BitVec.ofNat 384 ((runs .boot 0x00FA [] (loading (header 0) (List.range 65))).sw.life.fw.be 24 48)) = false := by decide +kernel
  rw [h, Bool.false_and]

/-- The image with its body's digest is complete with a good header, and its hash matches; whether its signature verifies is a
free value. -/
theorem witness_FirmwareLoadAndStart_digest :
    (runs .boot 0x00FA [] (loading (header bodyDigest.toNat) (List.range 65))).sw.life.fw.headerOk = true
      ∧ Fw.bodyHash (runs .boot 0x00FA [] (loading (header bodyDigest.toNat) (List.range 65))).sw.life.fw 4
          = BitVec.ofNat 384 ((runs .boot 0x00FA [] (loading (header bodyDigest.toNat) (List.range 65))).sw.life.fw.be 24 48) := by
  decide +kernel

/-- SHA-384 of "abc", the example of FIPS 180-4. -/
theorem test_sha384_abc : sha384 3 (fun i => 0x61 + i) =
    0xcb00753f45a35e8bb5a03d699ac65007272c32ab0eded1631a8b605a43ff5bed8086072ba1e7cc2358baeca134c825a7 := by decide +kernel

/-! ## Witnesses: walks and repair -/

/-- Way 15 is not a cache way. -/
def wayFree (s : Sw) : Sw := { mapped s with cache := { s.cache with waySet := 0x7FFF } }

/-- PIN_BIND of region 63, one line group at address 0, in way 15. -/
def bindOf : List (Nat × Nat × Nat) := [(0, 1, 63), (4, 2, 0x8000), (16, 8, 1)]

theorem witness_BackgroundWalksBegin :
    CommandReady (runs .config 0x0020 [(0, 1, 1), (2, 2, 0xFFFF)] id) 0 0x0020 (cmd 0x0020 [(0, 1, 1), (2, 2, 0xFFFF)])
      ∧ (cmd 0x0020 [(0, 1, 1), (2, 2, 0xFFFF)]).pay.getLsbD 1 = false
      ∧ fld (cmd 0x0020 [(0, 1, 1), (2, 2, 0xFFFF)]).pay 16 16 &&& State.reset.sw.heldWays = 0#16
      ∧ State.reset.sw.cache.setAhead &&& ~~~(partSet State.reset.sw.cache (cmd 0x0020 [(0, 1, 1), (2, 2, 0xFFFF)]).pay) = 0#16
      ∧ CommandReady (runs .running 0x0020 [(0, 1, 1), (2, 2, 0x7FFF)] id) 0 0x0020 (cmd 0x0020 [(0, 1, 1), (2, 2, 0x7FFF)])
      ∧ State.reset.sw.cache.setAhead &&& ~~~(partSet State.reset.sw.cache (cmd 0x0020 [(0, 1, 1), (2, 2, 0x7FFF)]).pay) ≠ 0#16
      ∧ CommandReady (runs .running 0x0021 bindOf wayFree) 0 0x0021 (cmd 0x0021 bindOf)
      ∧ checkBind State.reset.params State.reset.ao (runs .running 0x0021 bindOf wayFree).sw (cmd 0x0021 bindOf).pay = none
      ∧ CommandReady (runs .quiesced 0x0022 [(0, 1, 63)] gatherRegion) 0 0x0022 (cmd 0x0022 [(0, 1, 63)])
      ∧ (runs .quiesced 0x0022 [(0, 1, 63)] gatherRegion).sw.region 63 = some ⟨2, 0, 0, 1, 0x8000, 0, 1, .bound⟩
      ∧ sget 0 (runs .quiesced 0x0022 [(0, 1, 63)] gatherRegion).sw.gth.armed 63 = 0
      ∧ CommandReady (runs .config 0x0070 [] id) 0 0x0070 (cmd 0x0070 [])
      ∧ CommandReady (runs .quiescing 0x0070 [(0, 1, 2), (1, 1, 1), (12, 8, 1)] id) 0 0x0070 (cmd 0x0070 [(0, 1, 2), (1, 1, 1), (12, 8, 1)]) :=
  ⟨ready (by decide +kernel), by decide +kernel, by decide +kernel, by decide +kernel, ready (by decide +kernel), by decide +kernel,
    ready (by decide +kernel), by decide +kernel, ready (by decide +kernel), by decide +kernel, by decide +kernel,
    ready (by decide +kernel), ready (by decide +kernel)⟩

theorem witness_BackgroundWalksBegin_gather :
    (templated State.reset.sw).boundGather 63 = true
      ∧ (templated State.reset.sw).template 63 = some { someTemplate with mode := 2 }
      ∧ CommandReady (runs .running 0x0051 [(0, 1, 63), (1, 1, 1), (8, 4, 1)] templated) 0 0x0051 (cmd 0x0051 [(0, 1, 63), (1, 1, 1), (8, 4, 1)])
      ∧ 0 + 1 ≤ ctxCount ((templated State.reset.sw).regOf 63) { someTemplate with mode := 2 }
      ∧ CommandReady (runs .running 0x0052 [(0, 1, 63)] templated) 0 0x0052 (cmd 0x0052 [(0, 1, 63)])
      ∧ CommandReady (runs .quiesced 0x0053 [(0, 1, 63)] templated) 0 0x0053 (cmd 0x0053 [(0, 1, 63)]) :=
  ⟨by decide +kernel, by decide +kernel, ready (by decide +kernel), by decide +kernel, ready (by decide +kernel),
    ready (by decide +kernel)⟩

/-- The last column group of the last subarray. -/
def lastPlace : Place := ⟨3, 15, 31, 1, 35⟩

/-- REPAIR_APPLY of it. -/
def repairOf : List (Nat × Nat × Nat) := [(0, 1, 3), (1, 1, 15), (2, 1, 31), (3, 1, 1), (4, 2, 35)]

/-- It has been retired. -/
def retired (s : Sw) : Sw := { s with rep := { s.rep with retired := [lastPlace] } }

/-- Its subarray's four column spares are bad. -/
def noSpare (s : Sw) : Sw := { s with rep := { s.rep with bad := (List.range 4).map fun i => { lastPlace with index := i } } }

theorem witness_RepairMovesOrRetires :
    CommandReady (runs .config 0x0082 repairOf retired) 0 0x0082 (cmd 0x0082 repairOf)
      ∧ lastPlace = ⟨byteN (cmd 0x0082 repairOf).pay 0, byteN (cmd 0x0082 repairOf).pay 1, byteN (cmd 0x0082 repairOf).pay 2,
          byteN (cmd 0x0082 repairOf).pay 3, bytesN (cmd 0x0082 repairOf).pay 4 2⟩
      ∧ lastPlace ∈ (retired State.reset.sw).rep.retired
      ∧ CommandReady (runs .running 0x0082 repairOf id) 0 0x0082 (cmd 0x0082 repairOf) ∧ lastPlace ∉ State.reset.sw.rep.retired
      ∧ State.reset.sw.rep.spareFor lastPlace = some 0
      ∧ CommandReady (runs .running 0x0082 repairOf noSpare) 0 0x0082 (cmd 0x0082 repairOf)
      ∧ (noSpare State.reset.sw).rep.spareFor lastPlace = none ∧ (noSpare State.reset.sw).rep.retired.length < 256 :=
  ⟨ready (by decide +kernel), by decide +kernel, by decide +kernel, ready (by decide +kernel), by decide +kernel, by decide +kernel,
    ready (by decide +kernel), by decide +kernel, by decide +kernel⟩

/-- A walk of channel 0 at the end of its work. -/
def atEnd (k : WalkKind) : Walk :=
  { kind := k, op := 0, ch := some 0, held := false, started := true, cur := 65536, pass := 3, units := 65536, total := 65536
    count := 5, evs := [], img := [], m := 1, c := 1, failed := false, status := 0, startGtime := 0, todo := [], again := false
    extra := 0 }

/-- The slice has that walk, and channel 0 its command. -/
def walking (w : Walk) : State := runs .running 0x0070 [] fun s => { s with walk := some w }

theorem witness_WalksComplete :
    (∀ k ∈ [WalkKind.part 0x8000 0x7FFF [] [], .bind 63, .unbind 63, .flush 0 true 0 0, .save 63 0 1 0 0 true, .restore 63 0 0 0,
        .drain 63, .move lastPlace 0, .retire lastPlace],
      (walking (atEnd k)).awake = true ∧ (walking (atEnd k)).sw.walk = some (atEnd k)
        ∧ (walking (atEnd k)).sw.walkEnded (atEnd k) = true ∧ (atEnd k).ch = some 0
        ∧ ((walking (atEnd k)).sw.mbx.ch 0).run = some (cmd 0x0070 [])) := by decide +kernel

/-- A line in the eviction buffer. -/
def buffered (st : EvSt) : EvEnt := ⟨0, 7, Line.zero, .walk, st, 0, 0, none, 0⟩

theorem witness_WalksComplete_waits :
    (runs .running 0x0070 [] fun s => { s with
        walk := some { atEnd (.flush 0 true 0 0) with evs := [0] }, cache := { s.cache with ev := [buffered .written] } }).awake = true
      ∧ (∃ e ∈ [buffered .written], e.ord ∈ ({ atEnd (.flush 0 true 0 0) with evs := [0] } : Walk).evs)
      ∧ (∀ k ∈ [WalkKind.part 0x8000 0x7FFF [] [], .unbind 63, .flush 0 true 0 0, .retire lastPlace],
        (walking { atEnd k with todo := [127] }).sw.walk = some { atEnd k with todo := [127] })
      ∧ ({ atEnd (.flush 0 true 0 0) with again := true } : Walk).again = true
      ∧ (∀ k ∈ [WalkKind.bind 63, .save 63 0 1 0 0 true, .restore 63 0 0 0, .drain 63, .move lastPlace 0],
        (walking { atEnd k with held := true }).sw.walk = some { atEnd k with held := true }) := by decide +kernel

/-! ## Witnesses: units of walks -/

/-- A walk in its work, at unit `cur`, with locations for further units. -/
def midWalk (k : WalkKind) (cur : Nat) (todo : List Nat) : Walk := { atEnd k with cur := cur, pass := 0, units := cur, todo := todo }

/-- The slot runs a unit of it. -/
def walkUnit (w : Walk) (f : Sw → Sw) : State := inBackground fun s => { f s with walk := some w }

/-- It does, as a check. -/
def isWalkSlot (s : State) (w : Walk) : Bool :=
  isBackground s && decide (s.sw.pmc.units = 12 ∧ s.sw.tel.units = 4 ∧ s.sw.walk = some w ∧ s.sw.walkPending = true
    ∧ s.sw.home.txns = [] ∧ s.sw.arr.errs = [] ∧ s.sw.arr.lost = [] ∧ s.sw.pipe.undo = []
    ∧ s.sw.cache.ev = [] ∧ s.sw.cache.evWait = [] ∧ s.sw.cache.side = [])

theorem walkSlot {s : State} {w : Walk} (h : isWalkSlot s w = true) : WalkSlot s w := by
  simp only [isWalkSlot, Bool.and_eq_true, decide_eq_true_eq] at h
  exact ⟨backgroundSlot h.1, h.2⟩

/-- Location `loc` holds a line of tag 1: DIRTY and KIND as given. -/
def holding (loc : Nat) (dirty : Bool) (kind : Nat) (s : Sw) : Sw :=
  { gatherRegion s with arr := { s.arr with tags := [(loc, tagWord 1 true dirty 1 false kind 63 false)] } }

/-- A PART_SET that withdraws way 15, at set 7. -/
def partWalk (todo : List Nat) : Walk := midWalk (.part 0x8000 0x7FFF [] []) 7 todo

theorem witness_RepairMovesOrRetires_part :
    WalkSlot (walkUnit (partWalk []) (holding 127 false 0)) (partWalk []) ∧ 127 = locOf (7 % 65536) ((waysOf 0x8000).getD (7 / 65536) 0)
      ∧ (walkUnit (partWalk []) (holding 127 false 0)).sw.heldLoc 127 = false
      ∧ tValid ((walkUnit (partWalk []) (holding 127 false 0)).sw.tag 127) = true
      ∧ tKind ((walkUnit (partWalk []) (holding 127 false 0)).sw.tag 127) = 0
      ∧ tDirty ((walkUnit (partWalk []) (holding 127 false 0)).sw.tag 127) = false
      ∧ WalkSlot (walkUnit (partWalk []) (holding 127 true 0)) (partWalk [])
      ∧ tDirty ((walkUnit (partWalk []) (holding 127 true 0)).sw.tag 127) = true
      ∧ WalkSlot (walkUnit (partWalk [127]) (holding 127 true 0)) (partWalk [127])
      ∧ tRetired ((walkUnit (partWalk [127]) (holding 127 true 0)).sw.tag 127) = false :=
  ⟨walkSlot (by decide +kernel), by decide, by decide, by decide, by decide, by decide, walkSlot (by decide +kernel), by decide,
    walkSlot (by decide +kernel), by decide⟩

/-- A FLUSH of the whole store that writes dirty lines back, at set 7. -/
def flushWalk (todo : List Nat) : Walk := midWalk (.flush 0 true 0 0) 7 todo

theorem witness_RepairMovesOrRetires_flush :
    WalkSlot (walkUnit (flushWalk []) mapped) (flushWalk []) ∧ (∀ i < 16, tValid ((walkUnit (flushWalk []) mapped).sw.tag (locOf 7 i)) = false)
      ∧ WalkSlot (walkUnit (flushWalk [127]) (holding 127 true 0)) (flushWalk [127])
      ∧ (walkUnit (flushWalk [127]) (holding 127 true 0)).sw.flushHas true 0 0
          ((walkUnit (flushWalk [127]) (holding 127 true 0)).sw.lineOf 127) = true :=
  ⟨walkSlot (by decide +kernel), by decide, walkSlot (by decide +kernel), by decide⟩

/-- A directory with valid entries reads as valid everywhere. -/
theorem dirValid {s : Sw} (h : (s.arr.dir.all fun e => dValid e.2) = true) (k : Nat) : dValid (s.dirAt k) = true := by
  unfold Sw.dirAt
  generalize s.arr.dir = d at h
  induction d with
  | nil => show dValid 0 = true; decide
  | cons e d ih =>
    simp only [List.all_cons, Bool.and_eq_true] at h
    unfold sget
    repeat' split
    · exact h.1
    · decide
    · exact ih h.2

/-- A bind and an unbind of region 63, whose one line group is that of way 15. -/
def regionWalk (k : WalkKind) : Walk := midWalk k 7 []

theorem witness_RepairMovesOrRetires_region :
    WalkSlot (walkUnit (regionWalk (.bind 63)) (holding 3 false 0)) (regionWalk (.bind 63))
      ∧ (walkUnit (regionWalk (.bind 63)) (holding 3 false 0)).sw.region 63 = some ⟨2, 0, 0, 1, 0x8000, 0, 1, .bound⟩
      ∧ (⟨2, 0, 0, 1, 0x8000, 0, 1, .bound⟩ : Region).typ ≠ 0 ∧ (walkUnit (regionWalk (.bind 63)) (holding 3 false 0)).sw.mp.wait = []
      ∧ (∀ k, dValid ((walkUnit (regionWalk (.bind 63)) (holding 3 false 0)).sw.dirAt k) = true)
      ∧ (walkUnit (regionWalk (.bind 63)) (holding 3 false 0)).sw.findDir (0 + 7) = none
      ∧ tValid ((walkUnit (regionWalk (.bind 63)) (holding 3 false 0)).sw.tag 127) = false
      ∧ WalkSlot (walkUnit (regionWalk (.unbind 63)) (holding 127 true 3)) (regionWalk (.unbind 63))
      ∧ tKind ((walkUnit (regionWalk (.unbind 63)) (holding 127 true 3)).sw.tag 127) ≠ 1
      ∧ WalkSlot (walkUnit (regionWalk (.unbind 63)) (holding 127 true 1)) (regionWalk (.unbind 63))
      ∧ tKind ((walkUnit (regionWalk (.unbind 63)) (holding 127 true 1)).sw.tag 127) = 1
      ∧ tDirty ((walkUnit (regionWalk (.unbind 63)) (holding 127 true 1)).sw.tag 127) = true
      ∧ tRetired ((walkUnit (regionWalk (.unbind 63)) (holding 127 true 1)).sw.tag 127) = false :=
  ⟨walkSlot (by decide +kernel), by decide, by decide, rfl, dirValid rfl, by decide +kernel, by decide, walkSlot (by decide +kernel),
    by decide, walkSlot (by decide +kernel), by decide, by decide, by decide⟩

/-- A repair move and a retirement of row 0 of subarray 0 of tier 0, at its first location. -/
def placeWalk (k : WalkKind) : Walk := midWalk k 0 []

theorem witness_RepairMovesOrRetires_place :
    WalkSlot (walkUnit (placeWalk (.move ⟨0, 0, 0, 0, 0⟩ 1)) (holding 0 true 0)) (placeWalk (.move ⟨0, 0, 0, 0, 0⟩ 1))
      ∧ 0 = (⟨0, 0, 0, 0, 0⟩ : Place).loc 0
      ∧ tRetired ((walkUnit (placeWalk (.move ⟨0, 0, 0, 0, 0⟩ 1)) (holding 0 true 0)).sw.tag 0) = false
      ∧ WalkSlot (walkUnit (placeWalk (.retire ⟨0, 0, 0, 0, 0⟩)) (holding 0 false 0)) (placeWalk (.retire ⟨0, 0, 0, 0, 0⟩))
      ∧ tDirty ((walkUnit (placeWalk (.retire ⟨0, 0, 0, 0, 0⟩)) (holding 0 false 0)).sw.tag 0) = false
      ∧ (walkUnit (placeWalk (.retire ⟨0, 0, 0, 0, 0⟩)) (holding 0 false 0)).sw.lineOpen 0 = false
      ∧ WalkSlot (walkUnit (placeWalk (.retire ⟨0, 0, 0, 0, 0⟩)) (holding 0 false 2)) (placeWalk (.retire ⟨0, 0, 0, 0, 0⟩)) :=
  ⟨walkSlot (by decide +kernel), by decide, by decide, walkSlot (by decide +kernel), by decide, by decide +kernel, walkSlot (by decide +kernel)⟩

/-! ## Witnesses: arrivals -/

/-- A request of class 0 by agent 0x10 for address 0x80. -/
def someReq (op : BitVec 8) : Req := ⟨op, 7, 0x10, 0x80, 7, 0, 0, 0, 0, 0, false, false, false⟩

/-- It waits in the queue since clk 0. -/
def queued (op : BitVec 8) (seq : Nat) : ReqEnt := ⟨seq, someReq op, none, 0, 0, 0, none⟩

/-- A slice that runs, with a credit on each input channel and each output channel. -/
def open_ (f : Sw → Sw) : State :=
  withSw fun s => inState .running (f { s with
    port := { s.port with credIn := ⟨1, 1, 1, 1, 1⟩, credOut := ⟨63, 62, 1, 1, 1, 1⟩ }, life := { s.life with agents := 1024, snpExp := 12 } })

theorem witness_RequestsEnterTheQueue :
    (open_ id).awake = true ∧ (open_ id).sw.port.linkUp = true ∧ (open_ id).sw.port.credIn.req ≠ 0
      ∧ reqParityOk (reqFlit (someReq 0x23)) = true ∧ (open_ id).sw.life.st ≠ .fenced ∧ (open_ id).sw.life.drain = none
      ∧ (open_ id).sw.q.reqReg = [] ∧ (reqOf (reqFlit (someReq 0x23))).qos = 0
      ∧ (open_ id).sw.heldQ 0 < ((open_ id).sw.cls 0).qCap ∧ (open_ id).sw.owed < (open_ id).sw.freeQ
      ∧ ((open_ fun s => { s with q := { s.q with req := List.replicate 128 (queued 0x23 0) } }).sw.cls 0).qCap
          ≤ (open_ fun s => { s with q := { s.q with req := List.replicate 128 (queued 0x23 0) } }).sw.heldQ 0
      ∧ (open_ fun s => { s with q := { s.q with req := List.replicate 128 { queued 0x23 0 with r := { someReq 0x23 with qos := 1 } } } }).sw.heldQ 0 < 128
      ∧ (open_ fun s => { s with q := { s.q with req := List.replicate 128 { queued 0x23 0 with r := { someReq 0x23 with qos := 1 } } } }).sw.freeQ = 0 := by
  decide +kernel

/-- A contribution of class 0. -/
def someGth : Gth := ⟨0xA0, 7, 0x10, 1, 0, 0, 0, false, 0, 0, 0, 0⟩

/-- Slot 0 is an owned slot of class 0's contributions. -/
def ownSlot (s : Sw) : Sw := { s with fr := { s.fr with copyA := [(0, 0x140)], ramp := 8 } }

/-- Every readout entry is in use. -/
def readoutFull (s : Sw) : Sw :=
  { s with gth := { s.gth with ro := List.replicate 64 closed ++ List.replicate 32 { closed with res := true } } }

/-- Every ingress entry is in use. -/
def ingressFull (s : Sw) : Sw :=
  { s with q := { s.q with gth := List.replicate 16 ⟨0, someGth, 0, 0, 0, true, false, none⟩ ++ List.replicate 48 ⟨0, someGth, 0, 0, 0, false, false, none⟩ } }

/-- The domain has died in clk 0; a request waits in the input register. -/
def drainingNow (s : Sw) : Sw := { s with life := { s.life with drain := some 0 } }
def registerTaken (s : Sw) : Sw := { s with q := { s.q with reqReg := [queued 0x23 0] } }

theorem witness_RequestsEnterTheQueue_waits :
    (open_ drainingNow).sw.life.drain ≠ none ∧ (open_ drainingNow).sw.port.credIn.req ≠ 0 ∧ (open_ drainingNow).sw.life.st ≠ .fenced
      ∧ (open_ registerTaken).sw.q.reqReg ≠ [] ∧ (open_ registerTaken).sw.life.drain = none
      ∧ ((open_ reserved).sw.cls 0).qRsv = 16 ∧ (open_ reserved).sw.heldQ 0 < 16
      ∧ ((open_ fun s => { s with qos := { s.qos with cls := (List.range 8).map fun i => (i + 1, ⟨0, 0, 16, 128, false⟩) } }).sw.cls 0).qRsv
          ≤ (open_ fun s => { s with qos := { s.qos with cls := (List.range 8).map fun i => (i + 1, ⟨0, 0, 16, 128, false⟩) } }).sw.heldQ 0
      ∧ (open_ fun s => { s with qos := { s.qos with cls := (List.range 8).map fun i => (i + 1, ⟨0, 0, 16, 128, false⟩) } }).sw.freeQ
          ≤ (open_ fun s => { s with qos := { s.qos with cls := (List.range 8).map fun i => (i + 1, ⟨0, 0, 16, 128, false⟩) } }).sw.owed := by
  decide +kernel

theorem witness_ContributionsAndIoArrive_refused :
    (open_ drainingNow).sw.port.credIn.gth ≠ 0
      ∧ ({ open_ id with ao := { State.reset.ao with blockHolds := [⟨0, 6, 16, 0, [6]⟩] } } : State).ao.held 0 = true
      ∧ (open_ ownSlot).sw.goesDirect someGth = true
      ∧ takeEntry ((open_ ownSlot).sw.fr.lockedOnly 0 1) ((open_ ownSlot).sw.roUsed true) ((open_ ownSlot).sw.roUsed false) 32 64 ≠ none
      ∧ takeEntry ((open_ ingressFull).sw.fr.lockedOnly 0 1) ((open_ ingressFull).sw.ingUsed true) ((open_ ingressFull).sw.ingUsed false) 16 48 = none
      ∧ (open_ ingressFull).sw.goesDirect someGth = false := by decide +kernel

theorem witness_ContributionsAndIoArrive :
    (open_ id).sw.port.credIn.gth ≠ 0 ∧ gthHeaderOk (gthFlit someGth) = true ∧ (open_ id).ao.held 0 = false
      ∧ takeEntry ((open_ id).sw.fr.lockedOnly 0 1) ((open_ id).sw.roUsed true) ((open_ id).sw.roUsed false) 32 64 = some false
      ∧ takeEntry ((open_ id).sw.fr.lockedOnly 0 1) ((open_ id).sw.ingUsed true) ((open_ id).sw.ingUsed false) 16 48 = some false
      ∧ (open_ id).sw.goesDirect someGth = false ∧ (open_ ownSlot).sw.goesDirect someGth = true
      ∧ takeEntry ((open_ readoutFull).sw.fr.lockedOnly 0 1) ((open_ readoutFull).sw.roUsed true) ((open_ readoutFull).sw.roUsed false) 32 64
          = none
      ∧ (open_ id).sw.port.credIn.io ≠ 0 ∧ ioBadHeader (ioFlit (ioAt 3 0)) = [] ∧ (ioOf (ioFlit (ioAt 3 0))).op = 0x02
      ∧ ioBadHeader (ioFlit { ioAt 3 0 with op := 0x7F }) = [] ∧ (ioOf (ioFlit { ioAt 3 0 with op := 0x7F })).op ≠ 0x01
      ∧ (ioOf (ioFlit { ioAt 3 0 with op := 0x7F })).op ≠ 0x02 ∧ ioBadHeader (ioFlit (ioAt 3 0) ^^^ 1) ≠ [] := by decide +kernel

theorem witness_BadFlitsAreFatal :
    State.reset.awake = true ∧ State.reset.sw.port.linkUp = true ∧ State.reset.sw.domainDown = false
      ∧ State.reset.sw.life.fatal = none ∧ (∀ l ∈ [Lane.req, .rsp, .dat, .gth, .io], State.reset.sw.port.credIn.get l = 0)
      ∧ (∀ l ∈ [Lane.req, .rsp, .dat, .gth], (open_ id).sw.port.credIn.get l ≠ 0) ∧ (open_ id).sw.domainDown = false
      ∧ reqParityOk (reqFlit (someReq 0x23)) = true ∧ reqParityOk (reqFlit (someReq 0x23) ^^^ 1) = false
      ∧ rspParityOk 0x01 = false ∧ datParityOk 0x01 = false ∧ gthHeaderOk 0x01 = false := by decide +kernel

/-- A data flit of agent 0x10 with TXN 7. -/
def someDat (dop : BitVec 4) : Dat := ⟨7, 0x400, 0x10, 0, dop, 0, 0⟩

/-- A WritePartial waits for its data. -/
def needs (s : Sw) : Sw := { s with q := { s.q with req := [queued 0x63 0] } }

/-- An own image read awaits its answer under TXN 7. -/
def imageRead (s : Sw) : Sw :=
  { s with gth := { s.gth with self := [⟨7, .image 0 true, someReq 0x23, none, none, .waitAns⟩] } }

theorem witness_AnswersAndCreditsArrive :
    (open_ id).awake = true ∧ (open_ id).sw.port.credIn.dat ≠ 0 ∧ datParityOk (datFlit (someDat 0)) = true
      ∧ (datOf (datFlit (someDat 0))).dop = 0 ∧ ((open_ needs).sw.q.req.any fun e => e.wants (datOf (datFlit (someDat 0)))) = true
      ∧ ((open_ id).sw.q.req.any fun e => e.wants (datOf (datFlit (someDat 4)))) = false
      ∧ (datOf (datFlit (someDat 2))).dop = 2 ∧ (open_ id).sw.txn 7 = none
      ∧ (datOf (datFlit (someDat 1))).dop = 1
      ∧ (open_ imageRead).sw.awaiting 7 = some ⟨7, .image 0 true, someReq 0x23, none, none, .waitAns⟩
      ∧ SelfReq.reads ⟨7, .image 0 true, someReq 0x23, none, none, .waitAns⟩ = true ∧ (open_ id).sw.awaiting 7 = none
      ∧ (open_ id).sw.port.credIn.rsp ≠ 0 ∧ rspParityOk (rspFlit ⟨0xC5, 7, 0x400, 0x10, 0, 0⟩) = true
      ∧ rspOf (rspFlit ⟨0xC5, 7, 0x400, 0x10, 0, 0⟩) = ⟨0xC5, 7, 0x400, 0x10, 0, 0⟩
      ∧ rspOf (rspFlit ⟨0x83, 7, 0x400, 0x10, 0, 0⟩) = ⟨0x83, 7, 0x400, 0x10, 0, 0⟩
      ∧ rspOf (rspFlit ⟨0x82, 7, 0x400, 0x10, 0, 0⟩) = ⟨0x82, 7, 0x400, 0x10, 0, 0⟩
      ∧ (∀ l ∈ [Lane.io, .rsp], ((open_ id).sw.port.credOut.get l).toNat ≤ 63) := by decide +kernel

/-- No request of the queue or the input register awaits the data, and none was refused; an own request awaits its answer. -/
theorem witness_AnswersAndCreditsArrive_held :
    ((open_ id).sw.q.req.any fun e => e.wants (datOf (datFlit (someDat 0)))) = false
      ∧ ((open_ id).sw.q.reqReg.any fun e => e.wants (datOf (datFlit (someDat 0)))) = false
      ∧ ((open_ id).sw.q.datDrop.any fun x => x.1 == (someDat 0).src && x.2 == (someDat 0).txn) = false
      ∧ (open_ imageRead).sw.awaiting 7 = some ⟨7, .image 0 true, someReq 0x23, none, none, .waitAns⟩
      ∧ SelfReq.owner ⟨7, .image 0 true, someReq 0x23, none, none, .waitAns⟩ ≠ .spent := by decide +kernel

/-- The home transaction of `someReq`, in the phase given. -/
def someTxn (ph : TxnPh) : Txn :=
  { idx := 7, seq := 0, acc := 0, kind := .req, r := someReq 0x23, df := 0, wdat := none, line := 0, dirKey := some 0, base := 0
    snpOp := 0x42, fwdOk := false, toSnoop := [], await := [], ownerAns := none, fwdData := none, answers := [], last := 0, alloc := ⟨0, 0xFFFF, 0⟩, way := none
    resd := true, drop := false
    got := none, reading := false, evict := none, next := 0, ph := ph, ackFrom := some 0, acked := false, needAck := true
    side := false, born := 0, self := none, recalled := false, aborted := false }

/-- The slice has that transaction, in clk 4,096. -/
def having (x : Txn) : State := open_ fun s => { s with home := { s.home with txns := [x] }, fr := { s.fr with clk := 4096 } }

theorem witness_AnswersAndCreditsArrive_ack :
    (having (someTxn .ack)).sw.home.txns = [someTxn .ack] ∧ (someTxn .ack).kind = .req ∧ (someTxn .ack).needAck = true
      ∧ (someTxn .ack).acked = false ∧ (someTxn .ack).ph = .ack ∧ (someTxn .ack).r.src = 0x10 ∧ (someTxn .ack).r.txn = 7
      ∧ (someTxn .ack).evict = none ∧ (someTxn .ack).reading = false ∧ (having (someTxn .ack)).sw.pipe.wr = []
      ∧ (having (someTxn .ack)).sw.cache.evWait = [] ∧ (someTxn .ack).dirKey = some 0
      ∧ rspParityOk (rspFlit ⟨0x82, 7, 0x400, 0x10, 0, 0⟩) = true
      ∧ (having { someTxn .snoop with await := [(0x20, 0)] }).sw.txn 7 = some { someTxn .snoop with await := [(0x20, 0)] }
      ∧ ({ someTxn .snoop with await := [(0x20, 0)] } : Txn).allows 0 false = true := by decide +kernel

/-! ## Witnesses: slots -/

/-- Slot 0 of the active copy, the slots enabled, with one request of class 0 in the queue. -/
def slotOf (e : BitVec 32) (op : BitVec 8) (deadline : Bool) : State :=
  open_ fun s => { s with
    fr := { s.fr with copyA := [(0, e)], ramp := 8 }
    q := { s.q with req := [{ queued op 0 with r := { someReq op with dlValid := deadline } }] }
    qos := { s.qos with cls := [(0, ⟨0, 0, 0, 128, true⟩)] }, rep := { s.rep with scrubEn := false, calEn := false } }

theorem witness_SlotDecision :
    ((slotOf 0x300 0x23 false).sw.choose State.reset.params State.reset.ao = .pick (.req (queued 0x23 0)) .locked
      ∧ (slotOf 0x100 0x23 false).sw.choose State.reset.params State.reset.ao = .pick (.req (queued 0x23 0)) .owned
      ∧ (∃ c, (slotOf 0 0x23 true).sw.choose State.reset.params State.reset.ao = .pick c .deadline))
      ∧ eValid (slotOf 0x301 0x23 false).sw.slotEntry = true ∧ eLock (slotOf 0x301 0x23 false).sw.slotEntry = true
      ∧ (slotOf 0x301 0x23 false).sw.choose State.reset.params State.reset.ao = .empty
      ∧ eChan (slotOf 0x1C0 0x23 false).sw.slotEntry = 3 ∧ eLock (slotOf 0x1C0 0x23 false).sw.slotEntry = false
      ∧ ({ (slotOf 0x1C0 0x23 false).sw with pmc := { Pmc.reset with units := 11 } } : Sw).bgPending State.reset.ao = true
      ∧ ({ (slotOf 0x1C0 0x23 false).sw with pmc := { Pmc.reset with units := 11 } } : Sw).choose State.reset.params State.reset.ao
          = .background := by
  refine ⟨⟨by decide +kernel, by decide +kernel, ⟨_, rfl⟩⟩, by decide +kernel⟩

/-- Nothing is under way, as a check. -/
theorem quiet {s : Sw} (h : (isQuietBut s [] && s.life.fatal.isNone) = true) : Quiet s := by
  simp only [isQuietBut, Bool.and_eq_true, decide_eq_true_eq, Option.isNone_iff_eq_none] at h
  exact h

theorem quietBut {s : Sw} {l : List Staged} (h : isQuietBut s l = true) : QuietBut s l := by
  simpa only [isQuietBut, decide_eq_true_eq] using h

theorem witness_SlotsEndTheClk :
    (open_ id).awake = true ∧ Quiet (open_ id).sw ∧ (open_ id).sw.q.req = [] ∧ (open_ id).sw.q.gth = [] ∧ (open_ id).sw.q.io = []
      ∧ (open_ id).sw.bgPending (open_ id).ao = false ∧ (open_ id).sw.fr.report = [] :=
  ⟨rfl, quiet (by decide +kernel), rfl, rfl, rfl, by decide +kernel, rfl⟩

/-- A locked slot of class 63 admits nothing, one request of class 0 waits, and fatal cause 3 was found in this clk. -/
def dying (dead : Bool) : State :=
  { slotOf 0x33F 0x23 false with
    ao := { State.reset.ao with dom := { DomRec.clear with dead := dead } }
    sw := { (slotOf 0x33F 0x23 false).sw with life := { (slotOf 0x33F 0x23 false).sw.life with fatal := some (3, 2) } } }

theorem witness_SlotsEndTheClk_fatal : ∀ d, (dying d).awake = true ∧ QuietBut (dying d).sw []
    ∧ (dying d).sw.choose (dying d).params (dying d).ao = .empty ∧ (dying d).sw.life.fatal = some (3, 2)
    ∧ (∃ e ∈ (dying d).sw.q.req, e.self = none) := by
  intro d
  refine ⟨rfl, ?_, ?_, rfl, ⟨_, List.mem_singleton.2 rfl, rfl⟩⟩
  · cases d <;> exact quietBut (by decide +kernel)
  · cases d <;> decide +kernel

/-- A slot picks the request; line group 1, to which line 1 belongs, is that of slice `n`. -/
def picking (op : BitVec 8) (n : BitVec 7) : State :=
  { slotOf 0x100 op false with sw := { (slotOf 0x100 op false).sw with map := { (slotOf 0x100 op false).sw.map with
      committed := true, active := if n = 0 then [] else [(1, n)], mine := if n = 0 then [1] else [0] } } }

theorem witness_SlotsEndTheClk_accept :
    (∀ op ∈ ([0x23, 0xFF] : List (BitVec 8)), ∀ n ∈ ([0, 5] : List (BitVec 7)), (picking op n).awake = true ∧ Quiet (picking op n).sw
      ∧ (picking op n).sw.choose (picking op n).params (picking op n).ao = .pick (.req (queued op 0)) .owned ∧ (queued op 0).self = none)
      ∧ kindOf (queued 0x23 0).r.op = some .readOnce ∧ formOk (queued 0x23 0).r = true ∧ ReqKind.readOnce.caching = false
      ∧ (picking 0x23 0).sw.isHome State.reset.params (laddrOf 0x80) = true
      ∧ (picking 0x23 5).sw.isHome State.reset.params (laddrOf 0x80) = false
      ∧ kindOf (queued 0xFF 0).r.op = none ∧ (picking 0xFF 0).sw.fr.report = [] := by
  refine ⟨?_, by decide +kernel⟩
  intro op h n k
  simp only [List.mem_cons, List.not_mem_nil, or_false] at h k
  rcases h with rfl | rfl <;> rcases k with rfl | rfl <;> exact ⟨rfl, quiet (by decide +kernel), by decide +kernel, rfl⟩

/-- A request of agent 0x10 for line 1 of the package, local line 0, accepted in clk 4. -/
def stagedReq (op : BitVec 8) (dat : Option Dat) (noAlloc : Bool) : Staged :=
  ⟨5, 4, .req { queued op 5 with dat := dat, r := { someReq op with noAlloc := noAlloc } }, false, none, 0, ⟨0, 0xFFFF, 0⟩⟩

/-- It is before RES in the clk given, in a locked slot of class 63. -/
def comes (x : Staged) (clk : Nat) (f : Sw → Sw) : State :=
  open_ fun s => f { s with
    map := { s.map with committed := true, mine := [1] }
    pipe := { s.pipe with staged := [x] }, fr := { s.fr with copyA := [(0, 0x33F)], ramp := 8, clk := clk }
    rep := { s.rep with scrubEn := false, calEn := false } }

/-- Line 0 lies in region 5, which belongs to domain `d`. -/
def inRegion (d : BitVec 8) (s : Sw) : Sw := { s with pin := { s.pin with regions := [(5, ⟨1, d, 0, 1, 0x8000, 0, 65536, .bound⟩)] } }

theorem witness_SlotsEndTheClk_map : ∀ d ∈ ([0, 9] : List (BitVec 8)),
    (comes (stagedReq 0x23 none false) 5 (inRegion d)).awake = true
      ∧ QuietBut (comes (stagedReq 0x23 none false) 5 (inRegion d)).sw [stagedReq 0x23 none false]
      ∧ (comes (stagedReq 0x23 none false) 5 (inRegion d)).sw.choose State.reset.params State.reset.ao = .empty
      ∧ (stagedReq 0x23 none false).out = none ∧ (stagedReq 0x23 none false).acc + 2 = 5 + 1
      ∧ (comes (stagedReq 0x23 none false) 5 (inRegion d)).sw.regionOf 0 = some (5, ⟨1, d, 0, 1, 0x8000, 0, 65536, .bound⟩)
      ∧ (comes (stagedReq 0x23 none false) 5 (inRegion d)).sw.map.index (laddrOf 0x80) = 0 := by
  intro d h
  simp only [List.mem_cons, List.not_mem_nil, or_false] at h
  rcases h with rfl | rfl <;>
    exact ⟨rfl, quietBut (by decide +kernel), by decide +kernel, rfl, rfl, by decide +kernel, by decide +kernel⟩

/-- A ticket of another request on line `l`, with status `st`. -/
def otherTicket (l : Nat) (st : BitVec 8) (s : Sw) : Sw := { s with home := { s.home with tickets := [⟨0x20, 9, l, st⟩] } }

/-- A tracker entry of the request, refused `n` times. -/
def refused (n : Nat) (s : Sw) : Sw := { s with home := { s.home with tracker := [⟨0, 0x10, 7, 0, 0x10, n, 0⟩] } }

/-- The home has 256 open transactions on other lines, each awaiting COMP_ACK. -/
def fullTable (s : Sw) : Sw := { s with home := { s.home with txns := (List.range 256).map fun i =>
  { idx := i, seq := 100 + i, acc := 0, kind := .req, r := someReq 0x23, df := 0, wdat := none, line := 65536 * (i + 1), dirKey := none
    base := 0, snpOp := 0, fwdOk := false, toSnoop := [], await := [], ownerAns := none, fwdData := none, answers := [], last := 0
    alloc := ⟨0, 0, 0⟩, way := none, resd := true, drop := false, got := none, reading := false, evict := none, next := 0, ph := .ack
    ackFrom := some 0, acked := false, needAck := true, side := false, born := 0, self := none, recalled := false, aborted := false } } }

/-- Every way of the line's directory set is open. -/
def fullSet (s : Sw) : Sw := { s with arr := { s.arr with dir := (List.range 16).map fun w => (w, withOpen (dirPtr (w + 1) 1 0 [3]) true) } }

/-- The slice at RES of a request. -/
def refusing (op : BitVec 8) (f : Sw → Sw) : State := comes (stagedReq op none false) 10 f

/-- Its conditions, as a check. -/
def atResQuiet (x : Staged) (s : State) : Bool :=
  s.awake && isQuietBut s.sw [x] && s.sw.life.fatal.isNone && decide (s.sw.choose s.params s.ao = .empty) && x.out.isNone
    && x.acc + 7 == s.sw.fr.clk + 1 && s.ao.blockHolds.isEmpty && s.sw.arr.errs.isEmpty && s.sw.pipe.undo.isEmpty
    && (s.sw.regionOf 0).isNone && s.sw.map.index (laddrOf 0x80) == 0 && s.sw.arr.dir.all fun e => dValid e.2

theorem witness_SlotsEndTheClk_retry :
    atResQuiet (stagedReq 0x23 none false) (refusing 0x23 fun s => otherTicket 0 0x11 (refused 3 s)) = true
      ∧ (⟨0x20, 9, 0, 0x11⟩ : Ticket).is 0x10 7 0 = false ∧ (⟨0, 0x10, 7, 0, 0x10, 3, 0⟩ : Track).is 0x10 7 0 = true
      ∧ (refusing 0x23 fun s => otherTicket 0 0x11 (refused 3 s)).sw.home.tickets.length < 16
      ∧ atResQuiet (stagedReq 0x23 none false) (refusing 0x23 fun s => refused 2 (fullTable s)) = true
      ∧ (refusing 0x23 fullTable).sw.isOpen 0 = false ∧ (refusing 0x23 fullTable).sw.home.tickets = []
      ∧ (refusing 0x23 fullTable).sw.lookup 0 = .miss ∧ 256 ≤ (refusing 0x23 fullTable).sw.home.txns.length
      ∧ (refusing 0x23 fullTable).sw.home.tracker = []
      ∧ atResQuiet (stagedReq 0x21 none false) (refusing 0x21 fullSet) = true
      ∧ (refusing 0x21 fullSet).sw.isOpen 0 = false ∧ (refusing 0x21 fullSet).sw.home.tickets = []
      ∧ (refusing 0x21 fullSet).sw.lookup 0 = .miss ∧ (refusing 0x21 fullSet).sw.findDir 0 = none
      ∧ (refusing 0x21 fullSet).sw.freeDir 0 = none ∧ (refusing 0x21 fullSet).sw.dirVictim (someReq 0x21) 0 = none := by decide +kernel

/-- A request that comes through RES alone, as a check. -/
def isAtRes (x : Staged) (s : State) : Bool :=
  atResQuiet x s && s.sw.home.txns.isEmpty && s.sw.home.tickets.isEmpty && s.sw.home.tracker.isEmpty && s.sw.arr.lost.isEmpty
    && s.sw.pipe.parity.isEmpty && s.sw.cache.ev.isEmpty && s.sw.cache.evWait.isEmpty && s.sw.cache.side.isEmpty

theorem atRes {x : Staged} {s : State} {e : ReqEnt} (h : isAtRes x s = true) (hc : x.cand = .req e) (hs : e.self = none)
    (ha : e.r.addr = 0x80) : AtRes s x e 0 := by
  simp only [isAtRes, atResQuiet, isQuietBut, Bool.and_eq_true, decide_eq_true_eq, Option.isNone_iff_eq_none, beq_iff_eq,
    List.isEmpty_iff] at h
  obtain ⟨⟨⟨⟨⟨⟨⟨⟨⟨⟨⟨⟨⟨⟨⟨⟨⟨⟨⟨h1, h2⟩, h3⟩, h4⟩, h5⟩, h6⟩, h7⟩, h8⟩, h9⟩, h10⟩, h11⟩, h12⟩, h13⟩, h14⟩, h15⟩, h16⟩, h17⟩, h18⟩, h19⟩, h20⟩ := h
  exact ⟨h1, h2, h3, h13, h4, hc, h5, hs, h6, by rw [ha, h11], h10, h7, h14, h15, h8, h16, h17, h9, h18, h19, h20, dirValid h12⟩

/-- The slice at RES of a request with its data flit. -/
def performs (op : BitVec 8) (dat : Option Dat) (noAlloc : Bool) (f : Sw → Sw) : State := comes (stagedReq op dat noAlloc) 10 f

/-- Line 0 is held, DIRTY as given, at location 3. -/
def holds (dirty : Bool) (s : Sw) : Sw := { s with arr := { s.arr with tags := [(3, tagWord 0 true dirty 2 false 0 0 false)] } }

/-- The directory entry of line 0. -/
def recorded (e : BitVec 128) (s : Sw) : Sw := { s with arr := { s.arr with dir := [(0, e)] } }

/-! ## Witnesses: arrays and the eviction buffer -/

/-- Data of a line of fives. -/
def fives : Option Dat := some ⟨7, 0x400, 0x10, 0, 0, 0, BitVec.ofNat 1024 (5 * (2 ^ 1024 - 1) / 255)⟩

theorem witness_ArrayAccessesStartAndCommit_hit :
    (∀ op ∈ ([0x23, 0x62, 0x63, 0x80, 0xA0] : List (BitVec 8)), ∃ x e, AtRes (performs op fives false (holds false)) x e 0 ∧ e.r.op = op
        ∧ e.dat = fives ∧ HitsAt (performs op fives false (holds false)) 0 3)
      ∧ kindOf 0x23 = some .readOnce ∧ kindOf 0x62 = some .writeInv ∧ kindOf 0x63 = some .writePart
      ∧ kindOf 0x80 = some (.atomic 0 false) ∧ kindOf 0xA0 = some (.atomic 0 true) := by
  refine ⟨?_, by decide⟩
  intro op h
  simp only [List.mem_cons, List.not_mem_nil, or_false] at h
  rcases h with rfl | rfl | rfl | rfl | rfl <;>
    exact ⟨_, _, atRes (x := stagedReq _ fives false) (by decide +kernel) rfl rfl rfl, rfl, rfl, by unfold HitsAt; decide +kernel⟩

/-- An access of bank pair 31 that was due in clk 3. -/
def someAcc (write : Bool) : ArrAcc := ⟨31, 3, 0, 9, none, 0, write, .plain, 0, none, none⟩

/-- A line of ones for location 31 of set 31's way 0. -/
def someWr (at_ : Option Nat) : PendWr := ⟨9, locOf 31 0, ⟨1, 0, 0⟩, false, none, none, at_⟩

/-- The access waits, and the write with it, in clk 4. -/
def arrays (write : Bool) (busy : Nat) (w : PendWr) : State :=
  open_ fun s => { s with pipe := { s.pipe with acc := [someAcc write], busy := [(31, busy)], wr := [w] }, fr := { s.fr with clk := 4 } }

theorem witness_ArrayAccessesStartAndCommit :
    (arrays true 4 (someWr none)).awake = true ∧ sget 0 (arrays true 4 (someWr none)).sw.pipe.busy 31 ≤ 4
      ∧ (arrays true 4 (someWr none)).sw.nextAccess 31 = some (someAcc true) ∧ (someAcc true).at_ < 4 ∧ (someAcc true).rank = 0
      ∧ (someAcc true).job = .plain ∧ (someAcc true).flight = none ∧ (someAcc true).write = true
      ∧ (arrays true 4 (someWr none)).sw.pipe.wr = [someWr none] ∧ (someWr none).ord = (someAcc true).ord
      ∧ (someWr none).flight = none ∧ pairOf (someWr none).loc = (someAcc true).pair ∧ (someWr none).at_ = none
      ∧ 4 < sget 0 (arrays true 5 (someWr none)).sw.pipe.busy 31 ∧ (open_ id).sw.nextAccess 0 = none
      ∧ (arrays true 4 (someWr (some 4))).sw.pipe.wr = [someWr (some 4)] ∧ (someWr (some 4)).at_ = some 4
      ∧ (someWr (some 4)).dirty = false
      ∧ (tRetired ((arrays true 4 (someWr (some 4))).sw.tag (someWr (some 4)).loc)
          && tValid ((arrays true 4 (someWr (some 4))).sw.tag (someWr (some 4)).loc)) = false
      ∧ Arr.wf (arrays true 4 (someWr (some 4))).sw.arr := by
  unfold Arr.wf; decide +kernel

/-- A line that waits for an eviction-buffer entry. -/
def someWait : EvWait := ⟨3, 7, Line.zero, .victim, none, 0, none, none, 0, false, false, none⟩

theorem witness_EvictionBufferAndVerifyReads_res :
    (∃ x e, AtRes (performs 0x62 fives true id) x e 0 ∧ e.r.op = 0x62 ∧ e.r.noAlloc = true ∧ e.dat = fives)
      ∧ (performs 0x62 fives true id).sw.findLine 0 = none ∧ (performs 0x62 fives true id).sw.findDir 0 = none
      ∧ (∀ d : Bool, (∃ x e, AtRes (performs 0x42 none false (holds d)) x e 0 ∧ e.r.op = 0x42)
          ∧ HitsAt (performs 0x42 none false (holds d)) 0 3 ∧ tDirty ((performs 0x42 none false (holds d)).sw.tag 3) = d)
      ∧ kindOf 0x42 = some .cleanInv := by
  refine ⟨⟨_, _, atRes (x := stagedReq 0x62 fives true) (by decide +kernel) rfl rfl rfl, rfl, rfl, rfl⟩, by decide +kernel, by decide +kernel, ?_,
    rfl⟩
  intro d
  cases d <;> exact ⟨⟨_, _, atRes (x := stagedReq 0x42 none false) (by decide +kernel) rfl rfl rfl, rfl⟩, by unfold HitsAt; decide +kernel,
    by decide +kernel⟩

theorem witness_EvictionBufferAndVerifyReads :
    (open_ fun s => { s with cache := { s.cache with evWait := [someWait], ev := List.replicate 31 (buffered .waiting) } }).sw.cache.ev.length
        < 32
      ∧ (open_ fun s => { s with cache := { s.cache with evWait := [someWait], ev := List.replicate 31 (buffered .waiting) } }).sw.cache.evWait.find?
          (open_ fun s => { s with cache := { s.cache with evWait := [someWait], ev := List.replicate 31 (buffered .waiting) } }).sw.mayEnter
        = some someWait
      ∧ 32 ≤ (open_ fun s => { s with cache := { s.cache with ev := List.replicate 32 (buffered .waiting) } }).sw.cache.ev.length
      ∧ (open_ fun s => { s with arr := { s.arr with verify := [(.data, 0)] } }).sw.arr.verify = [(.data, 0)]
      ∧ (open_ fun s => { s with arr := { s.arr with verify := [(.data, 0)] } }).sw.domainDown = false
      ∧ (∀ x ∈ (open_ id).sw.arr.errs, x.st ≠ .data ∨ x.cw ≠ 0) := by decide +kernel

/-! ## Witnesses: responses, snoops, timers -/

/-- A response that is due, and the one that answers the transaction. -/
def someResp (b : Body) (x : Option Nat) : Resp := ⟨0, 4096, b, none, x, none, false, 0x23, false, none⟩

/-- The slice has a response to send. -/
def answering (r : Resp) : State :=
  open_ fun s => { s with
    pipe := { s.pipe with rsp := [r] }, home := { s.home with txns := [someTxn .resp] }, fr := { s.fr with clk := 4096 } }

theorem witness_ResponsesAndSnoopsLeave :
    (∀ b ∈ [Body.rsp ⟨0x80, 7, 0x10, 0x400, 0, 0⟩, .dat (someDat 1), .io (ioAt 3 0)], ∃ l, (someResp b none).lane = some l
      ∧ (answering (someResp b none)).sw.port.free l = true ∧ (answering (someResp b none)).sw.hasOut l = true
      ∧ (answering (someResp b none)).sw.fastWaits = false
      ∧ (answering (someResp b none)).sw.nextResp l = some (someResp b none))
      ∧ (answering (someResp (.dat (someDat 1)) (some 7))).sw.nextResp .dat = some (someResp (.dat (someDat 1)) (some 7))
      ∧ (someTxn .resp).ph = .resp ∧ State.reset.sw.hasOut .io = false ∧ State.reset.sw.port.credOut.snp = 0
      ∧ (having { someTxn .snoop with toSnoop := [5, 9] }).sw.port.free .snp = true
      ∧ (having { someTxn .snoop with toSnoop := [5, 9] }).sw.hasOut .snp = true
      ∧ (having { someTxn .snoop with toSnoop := [5, 9] }).sw.snooper = some { someTxn .snoop with toSnoop := [5, 9] }
      ∧ (having { someTxn .snoop with toSnoop := [5, 9] }).sw.txn 7 = some { someTxn .snoop with toSnoop := [5, 9] } := by
  refine ⟨?_, by decide +kernel⟩
  intro b h
  simp only [List.mem_cons, List.not_mem_nil, or_false] at h
  rcases h with rfl | rfl | rfl
  · exact ⟨.rsp, by decide +kernel⟩
  · exact ⟨.dat, by decide +kernel⟩
  · exact ⟨.io, by decide +kernel⟩

/-- A refusal that returns the credit of its flit. -/
def refusal : Resp := { someResp (.rsp ⟨0xC5, 7, 0x10, 0x400, 0x10, 0⟩) none with exact := true, crd := some .req }

/-- Directory entries of line 0: agent 0x20 owns it, agents 0x20 and 0x21 share it, agent 0x10 shares it alone or owns it. -/
def ownedBy (a : Nat) : BitVec 128 := dirPtr 0 2 a []
def sharedBy (l : List Nat) : BitVec 128 := dirPtr 0 1 0 l

theorem witness_ResponsesAndSnoopsLeave_crd :
    refusal.crd = some .req ∧ (answering refusal).sw.nextResp .rsp = some refusal
      ∧ (answering refusal).sw.port.crdPin.contains .req = false := by decide +kernel

theorem witness_ResponsesAndSnoopsLeave_res :
    (∀ op ∈ ([0x22, 0x41, 0x62, 0x42, 0x80] : List (BitVec 8)), ∃ x e, AtRes (performs op fives false (recorded (sharedBy [0x20, 0x21]))) x e 0
        ∧ e.r.op = op ∧ x.alloc.mode = 0
        ∧ (performs op fives false (recorded (sharedBy [0x20, 0x21]))).sw.findDir 0 = some 0)
      ∧ dHolders 1024 (withOpen (sharedBy [0x20, 0x21]) false) (some 0x10) = [0x20, 0x21]
      ∧ (∀ op ∈ ([0x21, 0x23] : List (BitVec 8)), ∃ x e, AtRes (performs op none false (recorded (ownedBy 0x20))) x e 0
        ∧ e.r.op = op ∧ (performs op none false (recorded (ownedBy 0x20))).sw.findDir 0 = some 0)
      ∧ dOwned (withOpen (ownedBy 0x20) false) = true ∧ dOwner (withOpen (ownedBy 0x20) false) = 0x20
      ∧ (∃ x e, AtRes (performs 0x41 none false (recorded (sharedBy [0x10]))) x e 0 ∧ e.r.op = 0x41)
      ∧ dHolders 1024 (withOpen (sharedBy [0x10]) false) (some 0x10) = [] ∧ dOwned (withOpen (sharedBy [0x10]) false) = false
      ∧ dCovers (withOpen (sharedBy [0x10]) false) 0x10 = true
      ∧ (∃ x e, AtRes (performs 0x61 fives false fun s => recorded (ownedBy 0x10) (holds false s)) x e 0 ∧ e.r.op = 0x61)
      ∧ (performs 0x61 fives false fun s => { holds false s with
            arr := { (holds false s).arr with dir := [(0, ownedBy 0x10)] } }).sw.findCached 0 = some 3
      ∧ dOwner (withOpen (ownedBy 0x10) false) = 0x10 := by
  refine ⟨?_, by decide +kernel, ?_, by decide +kernel, by decide +kernel, ?_, by decide +kernel, by decide +kernel, by decide +kernel, ?_,
    by decide +kernel, by decide +kernel⟩
  · intro op h
    simp only [List.mem_cons, List.not_mem_nil, or_false] at h
    rcases h with rfl | rfl | rfl | rfl | rfl <;>
      exact ⟨_, _, atRes (x := stagedReq _ fives false) (by decide +kernel) rfl rfl rfl, rfl, rfl, by decide +kernel⟩
  · intro op h
    simp only [List.mem_cons, List.not_mem_nil, or_false] at h
    rcases h with rfl | rfl <;>
      exact ⟨_, _, atRes (x := stagedReq _ none false) (by decide +kernel) rfl rfl rfl, rfl, by decide +kernel⟩
  · exact ⟨_, _, atRes (x := stagedReq 0x41 none false) (by decide +kernel) rfl rfl rfl, rfl⟩
  · exact ⟨_, _, atRes (x := stagedReq 0x61 fives false) (by decide +kernel) rfl rfl rfl, rfl⟩

/-- A retry-tracker entry in slot 127 and a ticket, in frame 4; the entry was last refused in frame `n`. -/
def tracked (n : Nat) : State :=
  open_ fun s => { s with
    home := { s.home with tracker := [⟨127, 0x10, 7, 1, 0x10, 1, n⟩], tickets := [⟨0x10, 7, 1, 0x10⟩], headFrame := 0 }
    fr := { s.fr with frameNo := 4 } }

theorem witness_HomeTimers :
    (tracked 0).awake = true ∧ (tracked 0).sw.home.tracker = [⟨127, 0x10, 7, 1, 0x10, 1, 0⟩] ∧ 0 + 4 ≤ (tracked 0).sw.fr.frameNo
      ∧ (∀ k ∈ (tracked 1).sw.home.tracker, (tracked 1).sw.fr.frameNo < k.lastFrame + 4)
      ∧ (tracked 0).sw.home.tickets = [⟨0x10, 7, 1, 0x10⟩] ∧ (tracked 0).sw.home.headFrame + 4 ≤ (tracked 0).sw.fr.frameNo
      ∧ (having { someTxn .snoop with await := [(5, 0)] }).sw.txn 7 = some { someTxn .snoop with await := [(5, 0)] }
      ∧ (having (someTxn .ack)).sw.domainDown = false ∧ (having (someTxn .ack)).sw.life.fatal = none
      ∧ 0 + 2 ^ (having (someTxn .ack)).sw.life.snpExp ≤ (having (someTxn .ack)).sw.fr.clk
      ∧ (having (someTxn .ack)).sw.txn 7 = some (someTxn .ack) ∧ (someTxn .ack).ackFrom = some 0
      ∧ (open_ fun s => { s with life := { s.life with drain := some 0 } }).sw.life.drain = some 0
      ∧ (open_ fun s => { s with life := { s.life with drain := some 0 } }).sw.pipe.rsp = []
      ∧ 0 + 4096 ≤ (answering (someResp (.dat (someDat 1)) none)).sw.fr.clk := by decide +kernel

/-- The drain of clk 1 waits for a response in clk 4,096, and a SLICE_QUIESCE runs. -/
def draining : State :=
  { answering (someResp (.dat (someDat 1)) none) with sw := { (answering (someResp (.dat (someDat 1)) none)).sw with
      mbx := (running .quiescing (cmd 3 []) State.reset.sw).mbx
      life := { (answering (someResp (.dat (someDat 1)) none)).sw.life with drain := some 1, quiescing := some 0 } } }

theorem witness_HomeTimers_drain :
    draining.awake = true ∧ draining.sw.life.drain = some 1 ∧ (∃ r, r ∈ draining.sw.pipe.rsp ∧ r.body = .dat (someDat 1))
      ∧ draining.sw.fr.clk < 1 + 4096 ∧ draining.sw.walk = none ∧ draining.sw.life.quiescing = some 0
      ∧ (draining.sw.mbx.ch 0).run = some (cmd 3 []) ∧ (tracked 0).sw.home.tickets.tail.head? ≠ some ⟨0x10, 7, 1, 0x10⟩ := by
  refine ⟨rfl, rfl, ⟨_, List.mem_singleton.2 rfl, rfl⟩, by decide +kernel, rfl, rfl, rfl, by decide +kernel⟩

/-! ## Witnesses: contributions -/

/-- A template of 32 elements: mode, OP, INFMT and EXPECT. -/
def gatherOf (mode : BitVec 2) (opt : Bool) (infmt : BitVec 3) (expect : Nat) : Template :=
  { someTemplate with mode := mode, opt := opt, infmt := infmt, elems := 1, expect := expect }

/-- A contribution of threes. -/
def gthEntry : GthEnt := ⟨5, { someGth with payload := BitVec.ofNat 1024 (3 * (2 ^ 1024 - 1) / 255) }, 0, 0, 0, false, false, none⟩

/-- It has been accepted in clk 4. -/
def stagedGth : Staged := ⟨5, 4, .gth gthEntry, false, none, 0, ⟨0, 0, 0⟩⟩

/-- Region 63, of TYPE 2, one line group of way 15. -/
def gatherReg : Region := ⟨2, 0, 0, 1, 0x8000, 0, 65536, .bound⟩

/-- Its first context. -/
def firstCtx (t : Template) : GthTarget := ⟨63, gatherReg, t, 0, (List.range t.c).map fun k => gatherReg.loc k⟩

/-- The contribution is at RES in clk 11, with `count` earlier ones counted and the head line holding sevens. -/
def contributing (t : Template) (count : Nat) : State :=
  comes stagedGth 10 fun s => { s with
    pin := { s.pin with regions := [(63, gatherReg)] }, gth := { s.gth with tmpl := [(63, t)] }
    arr := { s.arr with mword := if count = 0 then [] else [(15, BitVec.ofNat 64 (256 * count))]
                        data := (List.range 128).map fun i => (15 * 128 + i, 7) } }

/-- Its conditions, as a check. -/
def isGthAtRes (s : State) (t : Template) : Bool :=
  s.awake && isQuietBut s.sw [stagedGth] && decide (s.sw.life.fatal = none ∧ s.sw.choose s.params s.ao = .empty ∧ s.sw.walk = none
    ∧ stagedGth.out = none ∧ gthEntry.fwd = none ∧ stagedGth.acc + 7 = s.sw.fr.clk + 1 ∧ s.ao.blockHolds = []
    ∧ s.sw.target (s.sw.map.index gthEntry.g.laddr) = some (firstCtx t) ∧ gatherReg.ph = .bound ∧ (firstCtx t).locs.Nodup
    ∧ (∀ a ∈ (firstCtx t).locs, tRetired (s.sw.tag a) = false) ∧ s.sw.arr.errs = [] ∧ s.sw.arr.lost = [] ∧ s.sw.pipe.parity = [])

theorem gthAtRes {s : State} {t : Template} (h : isGthAtRes s t = true) : GthAtRes s stagedGth gthEntry (firstCtx t) := by
  simp only [isGthAtRes, isQuietBut, Bool.and_eq_true, decide_eq_true_eq] at h
  obtain ⟨⟨h1, h2⟩, h3, h4, h5, h6, h7, h8, h9, h10, h11, h12, h13, h14, h15, h16⟩ := h
  exact ⟨h1, h2, h3, h4, h5, rfl, h6, h7, h8, h9, h10, h11, h12, h13, h14, h15, h16⟩

/-- INT32, MINMAX, TREE16 and EXACT contexts that stay open, and an INT32 one that the second contribution closes. -/
theorem witness_InternalSignalOfTheOldestClose_contribution :
    (∀ t ∈ [gatherOf 2 false 6 3, gatherOf 3 true 6 3, gatherOf 1 false 4 3, gatherOf 0 false 4 3], ∀ n ∈ [0, 1],
      GthAtRes (contributing t n) stagedGth gthEntry (firstCtx t) ∧ t.infmt ≠ 7 ∧ t.expect < 2 ^ 17
        ∧ hCount (headerAt (contributing t n) (firstCtx t)) = n ∧ hPoison (headerAt (contributing t n) (firstCtx t)) = false
        ∧ Sparse.wf 0 (contributing t n).sw.gth.armed ∧ (∃ v, elemOf t gthEntry.g 31 = some v) ∧ 31 < t.n)
      ∧ GthAtRes (contributing (gatherOf 2 false 6 1) 1) stagedGth gthEntry (firstCtx (gatherOf 2 false 6 1))
      ∧ hCount (headerAt (contributing (gatherOf 2 false 6 1) 1) (firstCtx (gatherOf 2 false 6 1))) = (gatherOf 2 false 6 1).expect := by
  refine ⟨?_, gthAtRes (by decide +kernel), by decide +kernel⟩
  intro t h n k
  simp only [List.mem_cons, List.not_mem_nil, or_false] at h k
  rcases h with rfl | rfl | rfl | rfl <;> rcases k with rfl | rfl <;>
    exact ⟨gthAtRes (by decide +kernel), by decide, by decide, by decide +kernel, by decide +kernel, by decide, ⟨_, rfl⟩, by decide⟩

/-! ## Witnesses: own requests and the memory port -/

/-- A close with a result line to write. -/
def planned : RoEnt := { closed with issuedAll := false, todo := [.write 0x1000 128 5 false] }

/-- The readout queue has it. -/
def readingOut (e : RoEnt) (clk : Nat) : State := open_ fun s => { s with gth := { s.gth with ro := [e] }, fr := { s.fr with clk := clk } }

/-- The map gives the slice every line. -/
def homed (s : State) : State := { s with sw := { s.sw with map := { s.sw.map with committed := true, mine := List.range 1024 } } }

/-- A close that has not been planned: an INT context, a TREE16 one, an EXACT one and one that keeps a sum of squares, each with one
accumulated line of 16 FP32 or fixed-point elements; another close writes its result line. -/
def unplanned (mode : BitVec 2) (opt : Bool) (outfmt : BitVec 4) : RoEnt :=
  { closed with id := 1, issuedAll := false, planned := false, t := { someTemplate with mode := mode, opt := opt, outfmt := outfmt, elems := 1 } }

/-- The own write of entry 0 to the line of address 0 is under way. -/
def writing0 : SelfReq := ⟨0, .readout 0, { someReq 0x62 with addr := 0 }, none, none, .waitAns⟩

/-- The slice has that close, behind the own write. -/
def planning (e : RoEnt) : State :=
  { readingOut e 37 with sw := { (readingOut e 37).sw with gth := { (readingOut e 37).sw.gth with self := [writing0] } } }

theorem witness_OwnRequestsLeave_plan :
    (∀ e ∈ [unplanned 2 false 3, unplanned 3 false 3, unplanned 1 false 0, unplanned 0 false 0, unplanned 0 true 4],
      (planning e).awake = true ∧ (planning e).sw.domainDown = false ∧ (planning e).sw.gth.ro = [e] ∧ e.issuedAll = false
        ∧ e.planned = false ∧ (planning e).sw.roAt e ≤ (planning e).sw.fr.clk ∧ e.t.fwd = false
        ∧ (planning e).sw.lineWriting e.id (e.t.resultBase + BitVec.ofNat 52 (e.ctx * e.t.resultStride
            + State.reset.params.sliceIndex.toNat * e.t.resultSliceStride)) = true)
      ∧ (unplanned 1 false 0).t.n * (outFmt 0).bytes = 128 ∧ (unplanned 0 false 0).t.n * (outFmt 0).bytes ≤ 128
      ∧ (unplanned 0 true 4).t.n * (outFmt 4).bytes ≤ 128 := by decide +kernel

theorem witness_OwnRequestsLeave_home :
    (homed (readingOut planned 0)).sw.isHome State.reset.params (laddrOf 0x1000) = true
      ∧ (∀ y ∈ (homed (readingOut planned 0)).sw.gth.self, y.id ≠ (homed (readingOut planned 0)).sw.freeSelf ∧ y.st ≠ .entering)
      ∧ (homed (readingOut planned 0)).sw.gth.ro = [planned]
      ∧ (homed (readingOut planned 0)).sw.lineWriting planned.id 0x1000 = false := by decide +kernel

/-- An own request to be sent again in clk 32. -/
def resend : SelfReq := ⟨0, .image 0 true, someReq 0x23, none, none, .resendAt 32⟩

/-- The slice has it, in the clk given. -/
def resending (clk : Nat) : State := open_ fun s => { s with gth := { s.gth with self := [resend] }, fr := { s.fr with clk := clk } }

theorem witness_OwnRequestsLeave :
    (readingOut planned 0).awake = true ∧ (readingOut planned 0).sw.domainDown = false ∧ (readingOut planned 0).sw.gth.ro = [planned]
      ∧ planned.issuedAll = false ∧ planned.planned = true ∧ (readingOut planned 0).sw.roAt planned ≤ 0
      ∧ planned.todo = .write 0x1000 128 5 false :: [] ∧ (readingOut planned 0).sw.lineWriting planned.id 0x1000 = false
      ∧ (readingOut planned 0).sw.isHome State.reset.params (laddrOf 0x1000) = false ∧ (readingOut planned 0).sw.hasOut .req = true
      ∧ (readingOut planned 0).sw.hasOut .dat = true ∧ (readingOut planned 0).sw.port.reqOut = none
      ∧ (readingOut planned 0).sw.port.datOut = none ∧ (readingOut planned 0).sw.sends = true
      ∧ (readingOut planned 0).sw.datDue = false
      ∧ (∀ y ∈ (readingOut planned 0).sw.gth.self, y.id ≠ (readingOut planned 0).sw.freeSelf)
      ∧ 0 < (readingOut { planned with at_ := 1 } 0).sw.roAt { planned with at_ := 1 }
      ∧ (resending 32).sw.gth.self = [resend] ∧ resend.st = .resendAt 32 ∧ resend.g = none ∧ resend.dat = none
      ∧ 32 ≤ (resending 32).sw.fr.clk ∧ (resending 31).sw.fr.clk < 32 ∧ (resending 31).sw.hasOut .req = true
      ∧ (resending 31).sw.sends = true ∧ (resending 31).sw.walk = none ∧ (resending 31).sw.port.reqOut = none
      ∧ (resending 31).sw.isHome State.reset.params (laddrOf resend.r.addr) = false := by decide +kernel

/-- A read that waits, with budget. -/
def reading (w : List MpRead) (o : List MpOut) (st : List (Nat × Nat)) : State :=
  open_ fun s => { (gatherRegion s) with mp := { s.mp with rb := 128, wb := 128, wait := w, out := o, stale := st, staleWr := [63] } }

/-- The oldest demand read. -/
def someRead : MpRead := ⟨.bind 0, 0, 0, none, 0, 0, 0, 3⟩

theorem witness_MemoryReads_res :
    ∀ op ∈ ([0x21, 0x22] : List (BitVec 8)), ∃ x e, AtRes (performs op none false id) x e 0 ∧ e.r.op = op ∧ e.r.noAlloc = false
      ∧ MissesInto (performs op none false id) x 0 0 ∧ (performs op none false id).sw.findDir 0 = none
      ∧ (performs op none false id).sw.freeDir 0 = some 0 := by
  intro op h
  simp only [List.mem_cons, List.not_mem_nil, or_false] at h
  rcases h with rfl | rfl <;>
    exact ⟨_, _, atRes (x := stagedReq _ none false) (by decide +kernel) rfl rfl rfl, rfl, rfl, by unfold MissesInto; decide +kernel,
      by decide +kernel, by decide +kernel⟩

theorem witness_MemoryReads :
    (∃ tag, (reading [someRead] [] []).sw.readTag = some tag) ∧
    (reading [someRead] [] []).awake = true ∧ (reading [someRead] [] []).sw.life.st ≠ .fenced
      ∧ (reading [someRead] [] []).sw.mp.presented = none ∧ 128 ≤ (reading [someRead] [] []).sw.mp.rb
      ∧ (reading [someRead] [] []).sw.chooseRead = some (someRead, 0)
      ∧ (reading [] [] [(287, 2)]).sw.mp.isStale (287 : BitVec 9).toNat = true
      ∧ (reading [] [] []).sw.mp.isStale (287 : BitVec 9).toNat = false ∧ (∀ o ∈ (reading [] [] []).sw.mp.out, o.tag ≠ 287)
      ∧ (reading [] [⟨0, someRead, none⟩] []).sw.mp.out = [⟨0, someRead, none⟩]
      ∧ (reading [] [⟨0, someRead, some (0, 0)⟩] []).sw.domainDown = false
      ∧ (reading [] [⟨0, someRead, some (0, 0)⟩] []).sw.regionOf 0 = some (63, ⟨2, 0, 0, 1, 0x8000, 0, 1, .bound⟩)
      ∧ Arr.wf (reading [] [⟨0, someRead, some (0, 0)⟩] []).sw.arr
      ∧ true = (⟨0, someRead, none⟩ : MpOut).beat0.isNone :=
  ⟨Sw.freeNumber_exists _ (by decide : (0 : Nat) < 288) (by decide +kernel), by unfold Arr.wf; decide +kernel⟩

theorem witness_MemoryWrites :
    (∃ tag, (open_ fun s => { s with cache := { s.cache with ev := [buffered .waiting] } }).sw.writeTag = some tag) ∧
    (open_ fun s => { s with mp := { s.mp with wb := 128 }, cache := { s.cache with ev := [buffered .waiting] } }).sw.mp.wrHalf = none
      ∧ (open_ fun s => { s with cache := { s.cache with ev := [buffered .waiting] } }).sw.nextWrite = some (buffered .waiting)
      ∧ [buffered .waiting].Pairwise (fun a b => a.ord ≠ b.ord)
      ∧ (reading [] [] []).sw.mp.staleWr.contains (63 : BitVec 6).toNat = true
      ∧ (open_ id).sw.mp.staleWr.contains (63 : BitVec 6).toNat = false
      ∧ (∀ e ∈ (open_ id).sw.cache.ev, e.st = .written → e.tag ≠ 63)
      ∧ (∃ e ∈ (open_ fun s => { s with cache := { s.cache with ev := [buffered .written] } }).sw.cache.ev, e.st = .written ∧ e.tag = 0)
      ∧ (open_ id).sw.home.txns = [] :=
  ⟨Sw.freeNumber_exists _ (by decide : (0 : Nat) < 64) (by decide +kernel), by decide +kernel⟩

/-! ## Witnesses: addresses and invariants -/

/-- A map that gives the slice the first and the last line group. -/
def twoGroups : MapSt := ⟨true, [(0, 0), (1023, 0)], [0, 1023], [], []⟩

theorem witness_LocalIndicesAndAddressesCorrespond :
    twoGroups.mine.Pairwise (· < ·) ∧ (∀ g ∈ twoGroups.mine, g < 1024) ∧ 2 ^ 36 - 1 < 2 ^ 35 * twoGroups.k
      ∧ lineGroup (0x3FF : BitVec 45) ∈ twoGroups.mine ∧ pairOf (locOf (setOf (31 + 0)) 15) = pairOf (locOf (setOf (31 + 0)) 0) := by
  decide +kernel

theorem witness_AlwaysOnInvariantIsKept :
    AlwaysOnLegal (held 3 1 false).ao ∧ ∃ t, step { held 3 1 false with pending := [.resetRelease] } = .next t := by
  refine ⟨?_, _, rfl⟩
  unfold AlwaysOnLegal
  refine ⟨rfl, rfl, rfl, ?_, by decide, by decide, by decide, ?_, by decide, by decide,
    fun e => absurd e (by decide), by decide, by decide⟩
  · unfold TierLegal; decide
  · intro h e; cases e; decide

/-! ## One step each -/

/-- On an empty queue the block idles. -/
theorem test_idle : step State.reset = .next State.reset := rfl

/-- R35: the counter of a channel stops at 63. -/
theorem test_creditReturn_saturates : ∃ t, exec (.creditReturn .io) (open_ id) = .next t ∧ t.sw.port.credOut.io = 63 :=
  ⟨_, rfl, by decide +kernel⟩

theorem test_creditReturn_counts : ∃ t, exec (.creditReturn .rsp) (open_ id) = .next t ∧ t.sw.port.credOut.rsp = 63 :=
  ⟨_, rfl, by decide +kernel⟩

/-- R371: a claim of ID 7 with two occurrences returns 0x00020007, and the answer is due 14 clk after acceptance. -/
theorem test_evtClaim : ∃ t, exec .evtClaim (claimState false 0x3020 0 id) = .next t
    ∧ t.sw.pipe.rsp.map (fun r => (r.due, r.body)) = [(14, .io (ioAnswer Params.default (ioAt 3 0) 0 0x00020007))] :=
  ⟨_, rfl, by decide +kernel⟩

/-- R277: an armed object at COUNTER 4 with THR 5 fires on a signal of 1. -/
theorem test_syncSignal_fires :
    ∃ t, exec .syncSignal { synState .signal 1 with sw := { (synState .signal 1).sw with
        syn := { Syn.reset with obj := [(16383, ⟨4, 5, true, false, 0, 1, 0, 0⟩)] } } } = .next t
      ∧ t.sw.syn.obj = [(16383, ⟨5, 5, false, true, 0, 1, 0, 0⟩)] := ⟨_, rfl, by decide +kernel⟩

/-- R277: with THR one above the new COUNTER it stays armed. -/
theorem test_syncSignal_waits :
    ∃ t, exec .syncSignal { synState .signal 1 with sw := { (synState .signal 1).sw with
        syn := { Syn.reset with obj := [(16383, ⟨4, 6, true, false, 0, 1, 0, 0⟩)] } } } = .next t
      ∧ t.sw.syn.obj = [(16383, ⟨5, 6, true, false, 0, 1, 0, 0⟩)] := ⟨_, rfl, by decide +kernel⟩

/-- R48: a beat of an unknown tag is PROTOCOL with the tag in INFO. -/
theorem test_mpReadBeat_unknown :
    ∃ t, exec (.mpReadBeat 287 false 0 0 0 false) (open_ id) = .next t ∧ (t.sw.src 8).fresh = 1 ∧ (t.sw.src 8).freshInfo = 287 :=
  ⟨_, rfl, by decide +kernel⟩

end Sys2Proof.Tests
end

section
/-! The outcomes of a step: the front command runs, no command is refused, and MP_READ_BEAT alone can fault (R5, R48). -/
namespace Sys2Proof.Machine

/-- With a command waiting, a step runs it with the queue's rest. -/
theorem step_of_pending {s : State} {c : Instr} {rest : List Instr} (h : s.pending = c :: rest) :
    step s = exec c { s with pending := rest } := by
  unfold step; rw [h]

/-- A completion of a memory write always has a next state: stale, in a working region, or in one that is held. -/
theorem execMpWriteComplete_next (tag : BitVec 6) (s : State) : ∃ t, execMpWriteComplete tag s = .next t := by
  unfold execMpWriteComplete
  split
  · exact ⟨_, rfl⟩
  · split <;> exact ⟨_, rfl⟩

/-- A beat of read data has a next state or stops the machine; it is never refused. -/
theorem execMpReadBeat_cases (tag : BitVec 9) (beat : Bool) (data : BitVec 512) (par : BitVec 64) (poison : BitVec 4)
    (err : Bool) (s : State) :
    (∃ t, execMpReadBeat tag beat data par poison err s = .next t)
      ∨ execMpReadBeat tag beat data par poison err s = .fault .unspecified := by
  unfold execMpReadBeat
  split
  · exact .inl ⟨_, rfl⟩
  · split
    · exact .inl ⟨_, rfl⟩
    · split
      · exact .inr rfl
      · exact .inl ⟨_, rfl⟩

/-- Every command has a next state, but for a beat of read data, which can stop the machine (R5, R48). -/
theorem exec_cases (c : Instr) (s : State) :
    (∃ t, exec c s = .next t) ∨
      (exec c s = .fault .unspecified
        ∧ ∃ tag beat data par poison err, c = .mpReadBeat tag beat data par poison err) := by
  cases c with
  | mpReadBeat tag beat data par poison err =>
    exact (execMpReadBeat_cases tag beat data par poison err s).imp id fun h => ⟨h, _, _, _, _, _, _, rfl⟩
  | mpWriteComplete tag => exact .inl (execMpWriteComplete_next tag s)
  | resetRelease =>
    rcases execResetRelease_cases s with h | ⟨_, _, _, _, h⟩ | ⟨_, _, _, _, h⟩ | ⟨_, _, _, _, _, h⟩ <;> exact .inl ⟨_, h⟩
  | _ => exact .inl ⟨_, rfl⟩

end Sys2Proof.Machine

namespace Sys2Proof
open Machine

/-- Settles O1. -/
theorem stepRunsFrontCommand : Obligations.StepRunsFrontCommand := fun _ _ _ h => step_of_pending h

/-- Settles O2, from the case list of `exec`. -/
theorem everyCommandIsModelled : Obligations.EveryCommandIsModelled := by
  refine ⟨fun c s r h => ?_, fun c s r h => ?_⟩
  · rcases exec_cases c s with ⟨t, ht⟩ | ⟨hf, -⟩
    · rw [ht] at h; cases h
    · rw [hf] at h; cases h
  · rcases exec_cases c s with ⟨t, ht⟩ | ⟨-, hc⟩
    · rw [ht] at h; cases h
    · exact hc
end Sys2Proof
end

section
/-! The register window: what the half at the front leaves when it has acted (R351, R354). -/
namespace Sys2Proof.Machine

/-- The half at the front is the first one of the oldest access that has one. -/
theorem Sw.front_eq_some {s : Sw} {a : WinAcc} {off : Nat} {v : BitVec 32} (h : s.front = some (a, off, v)) :
    ∃ l hs, s.pipe.win = a :: l ∧ a.halves = (off, v) :: hs := by
  unfold Sw.front at h
  split at h
  · cases h
  · split at h
    · split at h
      · rename_i _ b l hw _ x hs hh
        obtain ⟨rfl, hx⟩ := Prod.mk.inj (Option.some.inj h)
        obtain ⟨rfl, rfl⟩ := Prod.mk.inj hx
        exact ⟨l, hs, hw, hh⟩
      · cases h
    · cases h

/-- The last half of an access is answered: OK, with what was read, no earlier than 14 clk after acceptance (R84). -/
theorem Sw.halfDone_answers {s : Sw} {a : WinAcc} {l : List WinAcc} {off : Nat} {v : BitVec 32} (p : Params) (n x : Nat)
    (hw : s.pipe.win = a :: l) (hh : a.halves = [(off, v)]) :
    ∃ r ∈ (s.halfDone p n x).pipe.rsp, r.due = max (a.acc + 14) s.fr.clk
      ∧ r.body = .io (ioAnswer p a.f ioOK (if a.write then 0 else putBytes a.rdata (off - a.off) n x)) := by
  simp only [Sw.halfDone, hw, hh, List.isEmpty_nil, if_true]
  exact ⟨_, List.mem_append_right _ (List.mem_singleton_self _), rfl, rfl⟩

end Sys2Proof.Machine

namespace Sys2Proof
open Machine

variable {s : State} {write : Bool} {a : WinAcc} {off : Nat} {v : BitVec 32}

/-- A half that has acted on `sw`, and the reads that follow it, change the pipeline alone, and its access is answered. -/
theorem halfDone_reads (h : AtFront s write a off v) {sw : Sw} (hp : sw.pipe = s.sw.pipe) (hf : sw.fr = s.sw.fr)
    (ao : AlwaysOn) (x : Nat) :
    ∃ q, (sw.halfDone s.params 4 x).reads s.params ao = { sw with pipe := q }
      ∧ ∀ t : State, t.sw.pipe = q → Answered s t a off x := by
  obtain ⟨q, hq, -⟩ := Sw.halfDone_only sw s.params 4 x
  obtain ⟨q', hq', hkeep⟩ := Sw.reads_only (sw.halfDone s.params 4 x) s.params ao
  refine ⟨q', by rw [hq', hq], fun t ht hlen => ?_⟩
  obtain ⟨l, hs, hwin, hhs⟩ := Sw.front_eq_some h.2.1
  obtain rfl : hs = [] := by simpa [hhs] using hlen
  obtain ⟨r, hr, hdue, hbody⟩ := Sw.halfDone_answers s.params 4 x (hp ▸ hwin) hhs
  exact ⟨r, ht ▸ hkeep r hr, hf ▸ hdue, hbody⟩

/-- A command of the switched region that performs the half at the front leaves, but for the pipeline, `sw`, and answers. -/
theorem run_row {c : Instr} {f : Params → AlwaysOn → Sw → Sw} (hx : exec c s = .next (s.run f)) (h : AtFront s write a off v)
    {sw : Sw} {x : Nat} (hf : f s.params s.ao s.sw = (sw.halfDone s.params 4 x).reads s.params s.ao)
    (hp : sw.pipe = s.sw.pipe) (hfr : sw.fr = s.sw.fr) :
    ∃ q, exec c s = .next { s with sw := { sw with pipe := q } } ∧ ∀ t : State, t.sw.pipe = q → Answered s t a off x := by
  obtain ⟨q, hq, ha⟩ := halfDone_reads h hp hfr s.ao x
  exact ⟨q, by rw [hx, State.run_awake h.1, hf, hq], ha⟩

/-- A command of both regions that performs the half at the front leaves `ao` and, but for the pipeline, `sw`, and answers. -/
theorem runAo_row {c : Instr} {f : Params → AlwaysOn → Sw → AlwaysOn × Sw} (hx : exec c s = .next (s.runAo f))
    (h : AtFront s write a off v) {ao : AlwaysOn} {sw : Sw} {x : Nat}
    (hf : f s.params s.ao s.sw = (ao, (sw.halfDone s.params 4 x).reads s.params ao))
    (hp : sw.pipe = s.sw.pipe) (hfr : sw.fr = s.sw.fr) :
    ∃ q, exec c s = .next { s with ao := ao, sw := { sw with pipe := q } }
      ∧ ∀ t : State, t.sw.pipe = q → Answered s t a off x := by
  obtain ⟨q, hq, ha⟩ := halfDone_reads h hp hfr ao x
  exact ⟨q, by rw [hx, State.runAo_awake h.1, hf, hq], ha⟩

/-- A window row of the switched region acts on the half at the front and answers it. -/
theorem window_row {c : Instr} {k : HalfKind} {f : Params → Nat → BitVec 32 → WinAcc → Sw → Sw}
    (hx : exec c s = .next (s.window k f)) (h : AtFront s write a off v) (hk : halfKind write off v = k)
    (hp : (f s.params off v a s.sw).pipe = s.sw.pipe) (hfr : (f s.params off v a s.sw).fr = s.sw.fr) :
    ∃ q, exec c s = .next { s with sw := { f s.params off v a s.sw with pipe := q } }
      ∧ ∀ t : State, t.sw.pipe = q → Answered s t a off 0 :=
  run_row hx h (by simp [h.2.1, h.2.2, hk]) hp hfr

/-- A window row of the always-on region acts on the half at the front and answers it; the switched region keeps all but its
pipeline. -/
theorem windowAo_row {c : Instr} {k : HalfKind} {f : Params → BitVec 32 → AlwaysOn → Sw → AlwaysOn}
    (hx : exec c s = .next (s.windowAo k f)) (h : AtFront s write a off v) (hk : halfKind write off v = k) :
    ∃ q, exec c s = .next { s with ao := f s.params v s.ao s.sw, sw := { s.sw with pipe := q } }
      ∧ ∀ t : State, t.sw.pipe = q → Answered s t a off 0 :=
  runAo_row hx h (by simp [h.2.1, h.2.2, hk]) rfl rfl

end Sys2Proof
end

section
/-! EVT_CLAIM and EVT_COMPLETE (R371, R372, R375). -/
namespace Sys2Proof.Machine

/-- A read of the first register of a bank is a claim (R374). -/
theorem halfKind_claim {off : Nat} (v : BitVec 32) (h1 : 0x3000 ≤ off) (h2 : off < 0x3100) (h3 : off % 0x20 = 0) :
    halfKind false off v = .claim := by
  simp [halfKind, h1, h2, h3]

/-- A write of the second register of a bank is a completion (R374). -/
theorem halfKind_complete {off : Nat} (v : BitVec 32) (h1 : 0x3000 ≤ off) (h2 : off < 0x3100) (h3 : off % 0x20 = 4) :
    halfKind true off v = .complete := by
  have hlo : ∀ n, n ≤ 0x2100 → ¬ off < n := fun n hn => by omega
  simp [halfKind, h1, h2, h3, hlo]

/-- What a claim of the winner does (R371). -/
theorem Sw.claim_winner {s : Sw} {b : Bank} {id : Nat} (h : s.evt.winner (bankNum b) = some id) :
    s.claim b = ((s.onSrc id fun e => { e with pend := false, occ := 0, age := 0, active := true, claimant := some b }).onBank
      (bankNum b) fun k => { k with signalled := false }, id + (s.src id).occ.toNat * 65536) := by
  unfold Sw.claim; simp only [h] <;> rfl

/-- A claim without a winner changes the bank's `signalled` alone, and reads 0x3FF where it was set (R371). -/
theorem Sw.claim_none {s : Sw} {b : Bank} (h : s.evt.winner (bankNum b) = none) :
    ∃ x, s.claim b = ({ s with evt := { s.evt with bank := x } }, if (s.evt.bankAt (bankNum b)).signalled then 0x3FF else 0)
      ∧ (sget BankSt.reset x (bankNum b)).signalled = false := by
  unfold Sw.claim; simp only [h]
  split
  · exact ⟨_, rfl, congrArg BankSt.signalled (sget_sset ..)⟩
  · next hs => exact ⟨s.evt.bank, rfl, by simpa [Evt.bankAt] using hs⟩

/-- A claim touches neither the pipeline nor the frame unit. -/
theorem Sw.claim_only (s : Sw) (b : Bank) : ∃ x, (s.claim b).1 = { s with evt := x } := by
  cases h : s.evt.winner (bankNum b) with
  | some id => rw [Sw.claim_winner h]; exact ⟨_, rfl⟩
  | none => obtain ⟨x, hx, -⟩ := Sw.claim_none h; rw [hx]; exact ⟨_, rfl⟩

/-- A write of EVT_COMPLETE rewrites one source at most. -/
theorem Sw.complete_only (s : Sw) (b : Bank) (id : Nat) : ∃ x, s.complete b id = { s with evt := { s.evt with src := x } } := by
  unfold Sw.complete
  split
  · exact ⟨_, rfl⟩
  · exact ⟨s.evt.src, rfl⟩

/-- The claimant of an active source completes it (R372). -/
theorem Sw.complete_src {s : Sw} {b : Bank} {id : Nat} (h1 : 1 ≤ id) (h2 : id ≤ 28) (ha : (s.src id).active = true)
    (hc : (s.src id).claimant = some b) :
    (s.complete b id).src id = { s.src id with active := false, claimant := none, freed := true } := by
  simp [Sw.complete, evtValid, h1, h2, Sw.onSrc_src, ha, hc]

/-- A source that is not named, or is not active with this claimant, is as it was (R372). -/
theorem Sw.complete_src_ne {s : Sw} {b : Bank} {id k : Nat} (hw : Sparse.wf EvtSrc.reset s.evt.src)
    (h : k = id → (s.src k).active = false ∨ (s.src k).claimant ≠ some b) : (s.complete b id).src k = s.src k := by
  unfold Sw.complete
  split
  · by_cases hk : k = id
    · subst hk
      rw [Sw.onSrc_src, if_neg]
      rcases h rfl with h | h <;> simp [h]
    · exact Sw.onSrc_src_ne _ _ _ _ hw hk
  · rfl

end Sys2Proof.Machine

namespace Sys2Proof
open Machine

variable {s : State} {a : WinAcc} {off : Nat} {v : BitVec 32}

/-- EVT_CLAIM performs a claim of the bank whose register is read, and answers with what the claim returns. -/
theorem evtClaim_row (h : AtFront s false a off v) (h1 : 0x3000 ≤ off) (h2 : off < 0x3100) (h3 : off % 0x20 = 0) :
    ∃ q, exec .evtClaim s = .next { s with sw := { (s.sw.claim (bankOfOff off)).1 with pipe := q } }
      ∧ ∀ t : State, t.sw.pipe = q → Answered s t a off (s.sw.claim (bankOfOff off)).2 := by
  obtain ⟨x, hx⟩ := Sw.claim_only s.sw (bankOfOff off)
  exact run_row rfl h (by simp [h.2.1, h.2.2, halfKind_claim v h1 h2 h3]) (by rw [hx]) (by rw [hx])

/-- Settles O20, from what a claim and a completion do to the event unit. -/
theorem eventClaimAndComplete : Obligations.EventClaimAndComplete := by
  refine ⟨fun s a off v id h h1 h2 h3 hwin => ?_, fun s a off v h h1 h2 h3 hwin => ?_, fun s a off v h h1 h2 h3 => ?_⟩
  · obtain ⟨q, ht, ha⟩ := evtClaim_row h h1 h2 h3
    rw [Sw.claim_winner hwin] at ht ha
    exact ⟨_, ht, sget_sset .., fun hw k hk => sget_sset_ne _ _ _ _ _ hw hk,
      congrArg BankSt.signalled (sget_sset ..), ha _ rfl, rfl, rfl⟩
  · obtain ⟨q, ht, ha⟩ := evtClaim_row h h1 h2 h3
    obtain ⟨x, hx, hs⟩ := Sw.claim_none hwin
    rw [hx] at ht ha
    exact ⟨_, ht, rfl, hs, ha _ rfl, rfl, rfl⟩
  · obtain ⟨x, hx⟩ := Sw.complete_only s.sw (bankOfOff off) (fldN v 0 10)
    obtain ⟨q, ht, ha⟩ := window_row (c := .evtComplete) rfl h (halfKind_complete v h1 h2 h3) (by rw [hx]) (by rw [hx])
    refine ⟨_, ht, ?_, ha _ rfl, fun g1 g2 => Sw.complete_src g1 g2,
      fun hw k => Sw.complete_src_ne hw, rfl, ?_⟩ <;> simp only [hx]

end Sys2Proof
end

section
/-! The window rows of the always-on region (R357, R361, R362, R421, R423). -/
namespace Sys2Proof.Machine

/-- A write of RST_SWREQ with REACH 0 takes the row of a cold reset (R362). -/
theorem halfKind_swCold {v : BitVec 32} (h : fldN v 16 2 = 0) : halfKind true 0x7020 v = .swCold := by
  unfold halfKind; rw [h]; rfl

/-- One with REACH 1 takes the row of a warm reset. -/
theorem halfKind_swWarm {v : BitVec 32} (h : fldN v 16 2 = 1) : halfKind true 0x7020 v = .swWarm := by
  unfold halfKind; rw [h]; rfl

/-- One with REACH 2 takes the row of a block reset. -/
theorem halfKind_swBlock {v : BitVec 32} (h : fldN v 16 2 = 2) : halfKind true 0x7020 v = .swBlock := by
  unfold halfKind; rw [h]; rfl

/-- RST_CNT_CLR leaves eight counters (R361). -/
theorem countCauses_length (mode : BitVec 2) (causes : List (BitVec 4)) (counts : List (BitVec 8)) :
    (countCauses mode causes counts).length = counts.length := by
  unfold countCauses; split <;> simp

/-- A cleared counter reads 1 when a release of the same clk has counted its cause, and 0 otherwise (R9, R361). -/
theorem countCauses_cleared (causes : List (BitVec 4)) {n i : Nat} (h : i < n) :
    (countCauses 0 causes (List.replicate n 0)).getD i 0 = if ∃ c ∈ causes, c.toNat = i + 1 then 1 else 0 := by
  simp [countCauses, List.getD, h]

/-- A write of TIER_OFF changes each tier whose bit it changes, and no other (R423). -/
theorem AlwaysOn.writeTierOff_tier {ao : AlwaysOn} (v : BitVec 4) {i : Nat} (h : i < ao.tiers.length) :
    (ao.writeTierOff v).tier i =
      if bitAt v i != bitAt ao.tierOff i then (ao.tier i).change (bitAt v i) else ao.tier i := by
  simp [AlwaysOn.writeTierOff, AlwaysOn.tier, List.getD, h]

end Sys2Proof.Machine

namespace Sys2Proof
open Machine

variable {s : State} {a : WinAcc} {off : Nat} {v : BitVec 32}

/-- HST_DOMAIN_CLEAR clears the record, unless the slice is fenced, and keeps what it cleared until the clk's end (R9, R357). -/
theorem hstDomainClear_row (h : AtFront s true a 0x104 v) :
    ∃ t, exec .hstDomainClear s = .next t ∧ Answered s t a 0x104 0
      ∧ t.ao = (if v.getLsbD 0 = true ∧ s.sw.life.st ≠ .fenced then { s.ao with dom := DomRec.clear } else s.ao)
      ∧ t.sw.life = (if v.getLsbD 0 = true ∧ s.sw.life.st ≠ .fenced
          then { s.sw.life with domClr := some (s.sw.life.domClr.getD s.ao.dom) } else s.sw.life)
      ∧ { t.sw with pipe := s.sw.pipe, life := s.sw.life } = s.sw := by
  have hk : halfKind true 0x104 v = .domClear := by simp [halfKind]
  by_cases hc : v.getLsbD 0 = true ∧ s.sw.life.st ≠ .fenced
  · have hb : (bitAt v 0 && s.sw.life.st != .fenced) = true := by simpa using hc
    obtain ⟨q, ht, ha⟩ := runAo_row (c := .hstDomainClear) rfl h (x := 0) (ao := { s.ao with dom := DomRec.clear })
      (sw := s.sw.onLife fun l => { l with domClr := some (l.domClr.getD s.ao.dom) })
      (by simp only [h.2.1, h.2.2, hk, hb, beq_self_eq_true, if_true]) rfl rfl
    exact ⟨_, ht, ha _ rfl, (if_pos hc).symm, (if_pos hc).symm, rfl⟩
  · have hb : (bitAt v 0 && s.sw.life.st != .fenced) = false := by simpa using hc
    obtain ⟨q, ht, ha⟩ := runAo_row (c := .hstDomainClear) rfl h (x := 0) (ao := s.ao) (sw := s.sw)
      (by simp only [h.2.1, h.2.2, hk, hb, beq_self_eq_true, if_true, Bool.false_eq_true, if_false]) rfl rfl
    exact ⟨_, ht, ha _ rfl, (if_neg hc).symm, (if_neg hc).symm, rfl⟩

/-- RST_PWR_CTRL_WRITE, tier by tier (R423). -/
theorem tierOff_written {ao : AlwaysOn} (hlen : ao.tiers.length = 4) (v : BitVec 32) {i : Nat} (hi : i < 4) :
    (ao.writeTierOff (fld v 0 4)).tier i =
      if v.getLsbD i = ao.tierOff.getLsbD i then ao.tier i else (ao.tier i).change (v.getLsbD i) := by
  have hb : bitAt (fld v 0 4) i = v.getLsbD i := by simp [hi]
  rw [AlwaysOn.writeTierOff_tier _ (by omega), hb]
  by_cases h : v.getLsbD i = bitAt ao.tierOff i <;> simp [h]

/-- Settles O23, row by row. -/
theorem alwaysOnWindowRows : Obligations.AlwaysOnWindowRows := by
  intro s a off v h
  refine ⟨?_, ?_, ?_, ?_, ?_, ?_⟩
  · rintro rfl
    exact hstDomainClear_row h
  · rintro rfl
    obtain ⟨q, ht, ha⟩ := windowAo_row (c := .rstCntClr) rfl h (by simp [halfKind])
    exact ⟨_, ht, ha _ rfl, countCauses_length 0 _ (List.replicate 8 0), fun i hi => countCauses_cleared _ hi, rfl, rfl⟩
  · rintro rfl hreach
    obtain ⟨q, ht, ha⟩ := windowAo_row (c := .rstSwreqCold) rfl h (halfKind_swCold hreach)
    exact ⟨_, ht, ha _ rfl, rfl, rfl⟩
  · rintro rfl hreach
    obtain ⟨q, ht, ha⟩ := windowAo_row (c := .rstSwreqWarm) rfl h (halfKind_swWarm hreach)
    exact ⟨_, ht, ha _ rfl, rfl, rfl⟩
  · rintro rfl hreach
    obtain ⟨q, ht, ha⟩ := windowAo_row (c := .rstSwreqBlock) rfl h (halfKind_swBlock hreach)
    exact ⟨_, ht, ha _ rfl, rfl, rfl⟩
  · rintro rfl hlen
    obtain ⟨q, ht, ha⟩ := windowAo_row (c := .rstPwrCtrlWrite) rfl h (by simp [halfKind])
    refine ⟨_, ht, ha _ rfl, rfl, rfl, fun i hi hv => ?_, fun i hi hv ho => ?_, fun i hi hv ho => ?_, rfl⟩
    · exact (tierOff_written hlen v hi).trans (if_pos hv)
    · have ht := (tierOff_written hlen v hi).trans (if_neg (by simp [hv, ho]))
      rw [hv] at ht
      refine ⟨fun hst => ht.trans ?_, fun hst => ht.trans ?_⟩
      · rcases hst with hst | hst <;> simp [Tier.change, hst]
      · simp [Tier.change, hst]
    · have ht := (tierOff_written hlen v hi).trans (if_neg (by simp [hv, ho]))
      rw [hv] at ht
      exact ⟨fun hst => ht.trans (by simp [Tier.change, hst]), fun hst => ht.trans (by simp [Tier.change, hst])⟩

end Sys2Proof
end

section
/-! Counters, HST_APT_SYNC and the plain registers (R7, R296, R318, R361, R363, R374, R431). -/
namespace Sys2Proof.Machine

/-- Two bits of a word as a number. -/
theorem fldN_low_two (v : BitVec 32) : fldN v 0 2 = (v.getLsbD 0).toNat + 2 * (v.getLsbD 1).toNat := by
  have h : fldN v 0 2 = v.toNat % 4 := by simp [fldN]
  rw [h, ← BitVec.testBit_toNat, ← BitVec.testBit_toNat, Nat.toNat_testBit, Nat.toNat_testBit]
  omega

/-- The bits of PMC_CFG after a write: EN and FILT as written, OVF cleared by a 1 unless the counter wrapped in the same clk
(R9, R435). -/
theorem cfgWrite_bits (old : BitVec 4) (v : BitVec 32) (wraps : Bool) :
    (cfgWrite old v wraps).getLsbD 0 = v.getLsbD 0 ∧ (cfgWrite old v wraps).getLsbD 1 = v.getLsbD 1
      ∧ (cfgWrite old v wraps).getLsbD 3 = (old.getLsbD 3 && (wraps || !v.getLsbD 3)) := by
  unfold cfgWrite
  rw [fldN_low_two]
  generalize v.getLsbD 0 = en
  generalize v.getLsbD 1 = filt
  generalize (old.getLsbD 3 && (wraps || !v.getLsbD 3)) = ovf
  revert en filt ovf; decide

/-- W1C on the low half of a 64-bit register clears the bits written as 1 (R7). -/
theorem clearHalf_low (x : BitVec 64) (v : BitVec 32) (i : Nat) :
    (clearHalf x false v).getLsbD i = if i < 32 then x.getLsbD i && !v.getLsbD i else x.getLsbD i := by
  simp only [clearHalf, Bool.false_eq_true, if_false, BitVec.getLsbD_and, BitVec.getLsbD_not, BitVec.getLsbD_append,
    BitVec.getLsbD_zero]
  by_cases h64 : i < 32 + 32
  · simp only [h64, decide_true, Bool.true_and]
    split <;> simp
  · rw [BitVec.getLsbD_of_ge x i (by omega)]; simp

/-- A write of a counter's PMC_CFG register with CLR set clears the counter too (R431). -/
theorem halfKind_pmcClr {off : Nat} {v : BitVec 32} (h1 : 0x4000 ≤ off) (h2 : off < 0x4C00) (h3 : 0x80 ≤ off % 0x100)
    (h4 : off % 0x100 < 0xA0) (hv : v.getLsbD 2 = true) : halfKind true off v = .pmcClr := by
  have hlo : ∀ n, n ≤ 0x4000 → ¬ off < n := fun n hn => by omega
  have hne : ∀ n, 0x4C00 ≤ n → off ≠ n := fun n hn => by omega
  simp [halfKind, h1, h2, h3, h4, hv, hlo, hne]
  omega

/-- A write of EVT_BANK_CTRL is a plain one (R374). -/
theorem halfKind_bankCtrl {off : Nat} (v : BitVec 32) (h1 : 0x3000 ≤ off) (h2 : off < 0x3100) (h3 : off % 0x20 = 8) :
    halfKind true off v = .plainWrite := by
  have hlo : ∀ n, n ≤ 0x3000 → ¬ off < n := fun n hn => by omega
  have hhi : ∀ n, 0x3100 ≤ n → ¬ n ≤ off := fun n hn => by omega
  have hne : ∀ n, 0x4000 ≤ n → off ≠ n := fun n hn => by omega
  simp [halfKind, h1, h2, h3, hlo, hhi, hne]
  omega

/-- A plain write to EVT_BANK_CTRL sets the bank's EN (R374). -/
theorem Sw.writePlain_bankCtrl (s : Sw) {off : Nat} (v : BitVec 32) (h1 : 0x3000 ≤ off) (h2 : off < 0x3100)
    (h3 : off % 0x20 = 8) :
    s.writePlain off v = s.onBank (bankNum (bankOfOff off)) fun b => { b with en := bitAt v 0 } := by
  have hlo : ∀ n, n ≤ 0x3000 → ¬ off < n := fun n hn => by omega
  simp [Sw.writePlain, h1, h2, h3, hlo]

/-- An offset that is not RST_MODE or RST_LOCK writes nothing of the always-on region (R361). -/
theorem AlwaysOn.writePlain_other (ao : AlwaysOn) {off : Nat} (v : BitVec 32) (h1 : off ≠ 0x7018) (h2 : off ≠ 0x701C) :
    ao.writePlain off v = ao := by
  simp [AlwaysOn.writePlain, h1, h2]

end Sys2Proof.Machine

namespace Sys2Proof
open Machine

variable {s : State} {a : WinAcc} {off : Nat} {v : BitVec 32}

/-- REGISTER_WRITE writes the register of its offset in both regions, and answers (R7). -/
theorem registerWrite_row (h : AtFront s true a off v) (hk : halfKind true off v = .plainWrite)
    {ao : AlwaysOn} {sw : Sw} (hao : s.ao.writePlain off v = ao) (hsw : s.sw.writePlain off v = sw)
    (hp : sw.pipe = s.sw.pipe) (hfr : sw.fr = s.sw.fr) :
    ∃ q, exec .registerWrite s = .next { s with ao := ao, sw := { sw with pipe := q } }
      ∧ ∀ t : State, t.sw.pipe = q → Answered s t a off 0 :=
  runAo_row rfl h (by simp [h.2.1, h.2.2, hk, hao, hsw]) hp hfr

/-- PMC_CNT_CLR (R9, R431, R435). -/
theorem pmcCntClr_row (h : AtFront s true a off v) (h1 : 0x4000 ≤ off) (h2 : off < 0x4C00) (h3 : 0x80 ≤ off % 0x100)
    (h4 : off % 0x100 < 0xA0) (hv : v.getLsbD 2 = true) :
    ∃ t, exec .pmcCntClr s = .next t ∧ Answered s t a off 0
      ∧ sget 0 t.sw.pmc.cnt (cfgIndex off) = BitVec.ofNat 48 (sget 0 s.sw.pmc.now (cfgIndex off))
      ∧ sget 0 t.sw.pmc.cfg (cfgIndex off)
          = cfgWrite (sget 0 s.sw.pmc.cfg (cfgIndex off)) v (s.sw.pmc.wrapped.contains (cfgIndex off))
      ∧ { t.sw.pmc with cnt := s.sw.pmc.cnt, cfg := s.sw.pmc.cfg } = s.sw.pmc
      ∧ t.ao = s.ao ∧ { t.sw with pmc := s.sw.pmc, pipe := s.sw.pipe } = s.sw := by
  obtain ⟨q, ht, ha⟩ := window_row (c := .pmcCntClr) rfl h (halfKind_pmcClr h1 h2 h3 h4 hv) rfl rfl
  exact ⟨_, ht, ha _ rfl, sget_sset .., sget_sset .., rfl, rfl, rfl⟩

/-- HST_APT_SYNC_READ, with no older aperture access of its source open (R296). -/
theorem hstAptSyncRead_row (h : AtFront s false a 0x140 v) (hb : s.sw.aptBefore a.f.src a.acc = false) :
    ∃ t, exec .hstAptSyncRead s = .next t ∧ Answered s t a 0x140 s.sw.pin.syncCount.toNat
      ∧ t.sw.pin = { s.sw.pin with syncCount := s.sw.pin.syncCount + 1 }
      ∧ t.ao = s.ao ∧ { t.sw with pin := s.sw.pin, pipe := s.sw.pipe } = s.sw := by
  obtain ⟨q, ht, ha⟩ := run_row (c := .hstAptSyncRead) rfl h
    (sw := s.sw.onPin fun q => { q with syncCount := s.sw.pin.syncCount + 1 }) (x := s.sw.pin.syncCount.toNat)
    (by simp [h.2.1, h.2.2, halfKind, hb]) rfl rfl
  exact ⟨_, ht, ha _ rfl, rfl, rfl, rfl⟩

/-- Settles O24, register by register. -/
theorem counterAndPlainRegisterWrites : Obligations.CounterAndPlainRegisterWrites := by
  refine ⟨fun s a off v h h1 h2 h3 h4 hv => ?_, fun s a v h hb => hstAptSyncRead_row h hb, fun s a off v h => ⟨?_, ?_, ?_, ?_, ?_⟩⟩
  · obtain ⟨t, ht, ha, hcnt, hcfg, hframe⟩ := pmcCntClr_row h h1 h2 h3 h4 hv
    obtain ⟨b0, b1, b3⟩ := cfgWrite_bits (sget 0 s.sw.pmc.cfg (cfgIndex off)) v (s.sw.pmc.wrapped.contains (cfgIndex off))
    exact ⟨t, ht, ha, hcnt, by rw [hcfg, b0], by rw [hcfg, b1], by rw [hcfg, b3], hframe⟩
  · intro h1 h2 h3
    obtain ⟨q, ht, ha⟩ := registerWrite_row h (halfKind_bankCtrl v h1 h2 h3)
      (s.ao.writePlain_other v (by omega) (by omega)) (s.sw.writePlain_bankCtrl v h1 h2 h3) rfl rfl
    exact ⟨_, ht, ha _ rfl, sget_sset .., rfl, rfl, rfl⟩
  · rintro rfl
    obtain ⟨q, ht, ha⟩ := registerWrite_row h (by simp [halfKind])
      (ao := { s.ao with mode := if s.ao.lock then s.ao.mode else fld v 0 2, bakLost := s.ao.bakLost && !v.getLsbD 8 })
      (by simp [AlwaysOn.writePlain]) (by simp [Sw.writePlain]) rfl rfl
    exact ⟨_, ht, ha _ rfl, rfl, rfl⟩
  · rintro rfl
    obtain ⟨q, ht, ha⟩ := registerWrite_row h (by simp [halfKind]) (ao := { s.ao with lock := s.ao.lock || v.getLsbD 0 })
      (by simp [AlwaysOn.writePlain]) (by simp [Sw.writePlain]) rfl rfl
    exact ⟨_, ht, ha _ rfl, rfl, rfl⟩
  · rintro rfl
    obtain ⟨q, ht, ha⟩ := registerWrite_row h (by simp [halfKind]) (s.ao.writePlain_other v (by decide) (by decide))
      (sw := s.sw.onTel fun t => { t with period := fld v 0 8, since := 0 }) (by simp [Sw.writePlain]) rfl rfl
    exact ⟨_, ht, ha _ rfl, rfl, rfl, rfl⟩
  · rintro rfl
    obtain ⟨q, ht, ha⟩ := registerWrite_row h (by simp [halfKind]) (s.ao.writePlain_other v (by decide) (by decide))
      (sw := s.sw.onQos fun q => { q with missSlot := clearHalf q.missSlot false v }) (by simp [Sw.writePlain]) rfl rfl
    exact ⟨_, ht, ha _ rfl, fun i hi => (clearHalf_low _ v i).trans (if_pos hi),
      fun i hi => (clearHalf_low _ v i).trans (if_neg (by omega)), rfl, rfl⟩

end Sys2Proof
end

section
/-! What a command notes beside its effect: slot totals, counters, events and trace records (R367, R429 to R438). -/
namespace Sys2Proof.Machine

/-- `t` is `s` but for the slot totals of the frame, the counters, the events and the trace records. -/
def Sw.Noted (s t : Sw) : Prop :=
  ∃ n r p e x, t = { s with fr := { s.fr with now := n, report := r }, pmc := p, evt := e, trc := x }

theorem Sw.Noted.refl (s : Sw) : s.Noted s := ⟨s.fr.now, s.fr.report, s.pmc, s.evt, s.trc, rfl⟩

theorem Sw.Noted.trans {s t u : Sw} (h : s.Noted t) (h' : t.Noted u) : s.Noted u := by
  obtain ⟨n, r, p, e, x, rfl⟩ := h
  obtain ⟨n', r', p', e', x', rfl⟩ := h'
  exact ⟨n', r', p', e', x', rfl⟩

theorem Sw.Noted.ite {s t u : Sw} {c : Prop} [Decidable c] (ht : s.Noted t) (hu : s.Noted u) : s.Noted (if c then t else u) := by
  split
  · exact ht
  · exact hu

theorem Sw.noted_traceRec (s : Sw) (typ : Nat) (g : BitVec 64) (c : Nat) : s.Noted (s.traceRec typ g c) := by
  obtain ⟨x, h⟩ := Sw.traceRec_only s typ g c
  exact h ▸ ⟨s.fr.now, s.fr.report, s.pmc, s.evt, x, rfl⟩

theorem Sw.noted_raise (s : Sw) (id i : Nat) : s.Noted (s.raise id i) := by
  obtain ⟨x, h⟩ := Sw.raise_only s id i
  exact h ▸ ⟨s.fr.now, s.fr.report, s.pmc, _, x, rfl⟩

theorem Sw.noted_count (s : Sw) (b c n : Nat) (w : Option Who) : s.Noted (s.count b c n w) := by
  obtain ⟨p, e, x, h⟩ := Sw.count_only s b c n w
  exact h ▸ ⟨s.fr.now, s.fr.report, p, e, x, rfl⟩

theorem Sw.noted_slotClass (s : Sw) (at_ c : Nat) (w : Option Who) : s.Noted (s.slotClass at_ c w) := by
  have totals : s.Noted (s.onFr fun f => if f.report.any fun r => at_ + 8 < r.2
      then { f with report := updFirst (fun r => at_ + 8 < r.2) (fun r => (r.1.add c, r.2)) f.report }
      else { f with now := f.now.add c }) := by
    unfold Sw.onFr
    dsimp only
    split
    · exact ⟨s.fr.now, _, s.pmc, s.evt, s.trc, rfl⟩
    · exact ⟨_, s.fr.report, s.pmc, s.evt, s.trc, rfl⟩
  exact totals.trans (Sw.noted_count ..)

theorem Sw.noted_outcome (s : Sw) (acc : Nat) (c : Cand) (o : Outc) : s.Noted (s.outcome acc c o) := Sw.noted_slotClass ..

theorem Sw.noted_traceAccept (s : Sw) (c : Cand) (g : BitVec 64) (o : Outc) : s.Noted (s.traceAccept c g o) := by
  exact .ite (Sw.noted_traceRec ..) (.refl s)

/-- A slot that admits nothing is only noted (R217, R433). -/
theorem Sw.noted_emptySlot (s : Sw) (p : Params) : s.Noted (s.emptySlot p) := by
  unfold Sw.emptySlot
  split
  · exact ((Sw.noted_raise s _ _).trans (Sw.noted_count ..)).trans (Sw.noted_slotClass ..)
  · exact Sw.noted_slotClass ..

/-- The counts of each clk are only noted (R429). -/
theorem Sw.noted_perClk (s : Sw) : s.Noted s.perClk := by
  have first : s.Noted (if !(s.mp.wait.isEmpty && s.mp.presented.isNone) && s.mp.rb < 128 then s.count 8 4 1 none else s) :=
    .ite (Sw.noted_count ..) (.refl s)
  exact .ite ((first.trans (Sw.noted_count ..)).trans (Sw.noted_count ..)) (first.trans (Sw.noted_count ..))

/-- The records of a clk go to the trace buffer (R437). -/
theorem Sw.noted_bufferTrace (s : Sw) : s.Noted s.bufferTrace := by
  have marker : s.Noted s.lossMarker :=
    .ite (.trans ⟨s.fr.now, s.fr.report, s.pmc, s.evt, _, rfl⟩ (Sw.noted_raise ..)) (.refl s)
  exact marker.trans ⟨s.lossMarker.fr.now, s.lossMarker.fr.report, s.lossMarker.pmc, s.lossMarker.evt, _, rfl⟩

theorem Sw.noted_endEvents (s : Sw) : s.Noted s.endEvents := ⟨s.fr.now, s.fr.report, s.pmc, _, s.trc, rfl⟩

end Sys2Proof.Machine
end

section
/-! A quiet clk: what SLOT_DECIDE leaves when the slot admits nothing and nothing of an earlier clk is under way (R74, R97; log 1). -/
namespace Sys2Proof.Machine

/-- Without a request of its own that waits to enter, the slice's queue is as it was (R272). -/
theorem Sw.enterOwn_idle {s : Sw} (h : s.gth.self = []) : s.enterOwn = s := by simp [Sw.enterOwn, h]

/-- No boundary acts in a clk in which none is due (R89). -/
theorem Sw.boundary_idle {s : Sw} (h : s.fr.due = false) : s.boundary = s := by simp [Sw.boundary, h]

/-- No contribution is held for direct acceptance (R95). -/
theorem Sw.placeDirect_idle {s : Sw} (p : Params) (h : s.q.direct = none) : s.placeDirect p = s := by simp [Sw.placeDirect, h]

/-- No transaction closes that has not done its work (R181). -/
theorem Sw.closeDone_idle {s : Sw} (h : ∀ t ∈ s.home.txns, t.ph ≠ .done) : s.closeDone = s := by
  have : s.home.txns.filter s.canClose = [] :=
    List.filter_eq_nil_iff.2 fun t ht => by simp [Sw.canClose, h t ht]
  simp [Sw.closeDone, this]

/-- Without an answer there is no late decision (R120). -/
theorem Sw.lateDecisions_idle {s : Sw} (p : Params) (n : Nat) (h : ∀ t ∈ s.home.txns, t.ph ≠ .done ∧ t.answers = []) :
    s.lateDecisions p n = s := by
  have hc := Sw.closeDone_idle fun t ht => (h t ht).1
  cases n with
  | zero => exact hc
  | succ n =>
    have : s.home.txns.filter (fun t => !t.answers.isEmpty) = [] :=
      List.filter_eq_nil_iff.2 fun t ht => by simp [(h t ht).2]
    simp [Sw.lateDecisions, this, minBy, hc]

/-- Without a fatal cause the domain is not declared dead (R205). -/
theorem Sw.settle_idle {s : Sw} (p : Params) (ao : AlwaysOn) (h : s.life.fatal = none) : s.settle p ao = (ao, s) := by
  simp [Sw.settle, h]

/-- Before the last slot of a frame the position moves on (R85). -/
theorem Sw.nextPos_inside {s : Sw} (p : Params) (h : s.fr.pos + 1 < s.fr.len) :
    s.nextPos p = s.onFr fun f => { f with pos := f.pos + 1 } := if_neg (Nat.not_le.2 h)

/-- A clk that ends brings the next clk's credits and budgets; of the rest of the region it drops only notes of its own. -/
theorem Sw.nextClk_only {s : Sw} (hf : s.arr.found = []) (hd : s.life.domClr = none) :
    ∃ o m p, s.nextClk = { s with fr := { s.fr with clk := s.fr.clk + 1 }, port := o, mp := m, pmc := p } ∧ m.wait = s.mp.wait := by
  have ha : { s.arr with found := [] } = s.arr := by rw [← hf]
  have hl : { s.life with domClr := none } = s.life := by rw [← hd]
  refine ⟨s.nextClk.port, s.nextClk.mp, s.nextClk.pmc, ?_, rfl⟩
  calc s.nextClk
    _ = { s with
          fr := { s.fr with clk := s.fr.clk + 1 }, port := s.nextClk.port, mp := s.nextClk.mp, pmc := s.nextClk.pmc
          arr := { s.arr with found := [] }, life := { s.life with domClr := none } } := rfl
    _ = _ := by rw [ha, hl]

/-- SLOT_DECIDE stage by stage. -/
theorem Sw.slot_eq {s s1 s2 s3 : Sw} {p : Params} {ao ao' : AlwaysOn} (h1 : (s.enterOwn.boundary.decide p ao).placeDirect p = s1)
    (h2 : s1.lateDecisions p s1.home.txns.length = s2) (h3 : s2.perClk.settle p ao = (ao', s3)) :
    s.slot p ao = ({ ao' with counted := [], sclk := ao'.sclk.edge }, (s3.nextPos p).bufferTrace.endEvents.nextClk.clkBegin p ao') := by
  simp only [Sw.slot, h1, h2, h3]

/-- The clk ends when SLOT_DECIDE has decided a slot that admits nothing and nothing of an earlier clk is under way; the next
clk begins on the region as it was, but for the frame unit, the port and the budgets, and for what is noted. -/
theorem Sw.slot_quiet {s : Sw} {staged : List Staged} (p : Params) (ao : AlwaysOn) (hq : QuietBut s staged)
    (hfatal : s.life.fatal = none) (hc : s.choose p ao = .empty) :
    ∃ f o m u e x, s.slot p ao = ({ ao with counted := [], sclk := ao.sclk.edge },
        ({ s with fr := f, port := o, mp := m, pmc := u, evt := e, trc := x } : Sw).clkBegin p ao)
      ∧ f.clk = s.fr.clk + 1 ∧ f.pos = s.fr.pos + 1 ∧ m.wait = s.mp.wait := by
  obtain ⟨hdue, hpos, -, -, -, hdirect, -, -, -, -, -, -, -, -, -, htxns, hself, -, -, -, hfound, hclr⟩ := hq
  have hdecide : s.decide p ao = s.emptySlot p := by simp [Sw.decide, hc]
  obtain ⟨n1, r1, u1, e1, x1, h1⟩ := Sw.noted_emptySlot s p
  obtain ⟨n2, r2, u2, e2, x2, h2⟩ := (Sw.noted_emptySlot s p).trans (Sw.noted_perClk _)
  have hslot : (s.enterOwn.boundary.decide p ao).placeDirect p = s.emptySlot p := by
    rw [Sw.enterOwn_idle hself, Sw.boundary_idle hdue, hdecide, Sw.placeDirect_idle p (by rw [h1]; exact hdirect)]
  have hlate : (s.emptySlot p).lateDecisions p (s.emptySlot p).home.txns.length = s.emptySlot p :=
    Sw.lateDecisions_idle p _ (by
      rw [h1]; intro t ht; obtain ⟨hph, hans⟩ := htxns t ht; exact ⟨by rw [hph]; decide, hans⟩)
  rw [Sw.slot_eq hslot hlate (Sw.settle_idle p ao (by rw [h2]; exact hfatal)), Sw.nextPos_inside p (by rw [h2]; exact hpos)]
  obtain ⟨n3, r3, u3, e3, x3, h3⟩ := (Sw.noted_bufferTrace ((s.emptySlot p).perClk.onFr fun f => { f with pos := f.pos + 1 })).trans
    (Sw.noted_endEvents _)
  rw [h2] at h3
  obtain ⟨o, m, u, hn, hw⟩ := Sw.nextClk_only
    (s := ((s.emptySlot p).perClk.onFr fun f => { f with pos := f.pos + 1 }).bufferTrace.endEvents)
    (by rw [h2, h3]; exact hfound) (by rw [h2, h3]; exact hclr)
  rw [hn]
  rw [h2, h3] at hw ⊢
  exact ⟨_, o, m, u, e3, x3, rfl, rfl, rfl, hw⟩

end Sys2Proof.Machine
end

section
/-! The clk that begins: one request comes through RES, and nothing else waits for the clk (R74, R76 to R79). -/
namespace Sys2Proof.Machine

/-- No array write is due (R76). -/
theorem Sw.commitDue_idle {s : Sw} (h : ∀ w ∈ s.pipe.wr, w.at_.any (· ≤ s.fr.clk) = false) : s.commitDue = s := by
  have hdue : s.pipe.wr.filter (fun w => w.at_.any (· ≤ s.fr.clk)) = [] := List.filter_eq_nil_iff.2 fun w hw => by simp [h w hw]
  have hkeep : s.pipe.wr.filter (fun w => !(w.at_.any (· ≤ s.fr.clk))) = s.pipe.wr :=
    List.filter_eq_self.2 fun w hw => by simp [h w hw]
  simp only [Sw.commitDue, hdue, List.foldl_nil, Sw.onPipe, hkeep]

/-- No array of the logic base is accessed. -/
theorem Sw.baseAccesses_idle {s : Sw} (h : ∀ a ∈ s.pipe.acc, a.pair ≠ 32) : s.baseAccesses = s := by
  have : s.pipe.acc.filter (fun a => a.pair == 32) = [] := List.filter_eq_nil_iff.2 fun a ha => by simp [h a ha]
  simp only [Sw.baseAccesses, this, List.foldl_nil]

/-- Updating one part by what it already is changes nothing. -/
theorem Sw.onGth_self {s : Sw} {f : GthSt → GthSt} (h : f s.gth = s.gth) : s.onGth f = s := by
  simp only [Sw.onGth, h]

theorem Sw.onPipe_self {s : Sw} {f : Pipe → Pipe} (h : f s.pipe = s.pipe) : s.onPipe f = s := by
  simp only [Sw.onPipe, h]

/-- No close comes through HDR (R74). -/
theorem Sw.closesSaid_idle {s : Sw} (h : s.gth.ro = []) : s.closesSaid = s := by
  simp only [Sw.closesSaid, h, List.filter_nil, List.foldl_nil]
  exact Sw.onGth_self (by rw [h]; simp only [updAll, List.map_nil]; rw [← h])

/-- No readout entry comes free (R236). -/
theorem Sw.freeReadouts_idle {s : Sw} (h : s.gth.ro = []) : s.freeReadouts = s :=
  Sw.onGth_self (by rw [h, List.filter_nil, ← h])

/-- No answer goes to a request of the slice's own (R272). -/
theorem Sw.deliverSelf_idle {s : Sw} (h : ∀ r ∈ s.pipe.rsp, r.lane.isNone = false) : s.deliverSelf = s := by
  have : s.pipe.rsp.filter (fun r => r.lane.isNone && s.ready r) = [] := List.filter_eq_nil_iff.2 fun r hr => by simp [h r hr]
  simp only [Sw.deliverSelf, this, List.foldl_nil]

/-- A walk that rests between its units does nothing (R258, R396). -/
theorem Sw.walkPump_idle {s : Sw} (p : Params) (h : s.walk.all walkRests = true) : s.walkPump p = s := by
  unfold Sw.walkPump
  cases hw : s.walk with
  | none => rfl
  | some w =>
    dsimp only
    split
    · rfl
    · have hrest : walkRests w = true := by simpa [hw] using h
      cases hk : w.kind with
      | save => simp [walkRests, hk] at hrest
      | restore => simp [walkRests, hk] at hrest
      | retire =>
        have htodo : w.todo = [] := by simpa [walkRests, hk] using hrest
        rw [htodo]; rfl
      | _ => rfl

/-- No request of the slice's own waits to leave (R258). -/
theorem Sw.pumpSelf_idle {s : Sw} (p : Params) (h : s.gth.self = []) : s.pumpSelf p = s := by
  simp [Sw.pumpSelf, h]

/-- No flit waits in the input register (R305). -/
theorem Sw.fillReq_idle {s : Sw} (p : Params) (n : Nat) (h : s.q.reqReg = []) : Sw.fillReq p n s = s := by
  cases n <;> simp [Sw.fillReq, h]

/-- No CleanInvalidate waits for its memory writes (R145). -/
theorem Sw.cleansDone_idle {s : Sw} (p : Params) (h : s.pipe.cleans = []) : s.cleansDone p = s := by
  simp only [Sw.cleansDone, h, List.filter_nil, List.foldl_nil]
  exact Sw.onPipe_self (by rw [h, List.filter_nil, ← h])

/-- No transaction waits for its memory writes (R203). -/
theorem Sw.memWrDone_idle {s : Sw} (p : Params) (h : ∀ t ∈ s.home.txns, t.ph ≠ .memWr) : s.memWrDone p = s := by
  have : s.home.txns.filter (fun t => t.ph == .memWr && (s.evCopies t.line).isEmpty) = [] :=
    List.filter_eq_nil_iff.2 fun t ht => by simp [h t ht]
  simp only [Sw.memWrDone, this, List.foldl_nil]

/-- No access to the sync window waits (R278). -/
theorem Sw.synReads_idle {s : Sw} (p : Params) (n : Nat) (h : s.pipe.syn = []) : Sw.synReads p n s = s := by
  cases n <;> simp [Sw.synReads, h]

/-- No access to the register window waits (R354). -/
theorem Sw.reads_idle {s : Sw} (p : Params) (ao : AlwaysOn) (h : s.pipe.win = []) : s.reads p ao = s := by
  simp [Sw.reads, h, sumNat, Sw.drainReads]

/-- Once the stages of a clk are done, nothing waits for the clk: no write is due, no access of the base arrays is raised, no
transaction waits for memory writes or ends, and no window access, own request or close is under way. -/
structure Sw.AtRest (s : Sw) : Prop where
  wr : ∀ w ∈ s.pipe.wr, w.at_.any (· ≤ s.fr.clk) = false
  acc : ∀ a ∈ s.pipe.acc, a.pair ≠ 32
  rsp : ∀ r ∈ s.pipe.rsp, r.lane.isNone = false
  win : s.pipe.win = []
  syn : s.pipe.syn = []
  cleans : s.pipe.cleans = []
  txns : ∀ t ∈ s.home.txns, t.ph ≠ .memWr ∧ t.ph ≠ .done
  self : s.gth.self = []
  ro : s.gth.ro = []
  reqReg : s.q.reqReg = []
  walk : s.walk.all walkRests = true

/-- Nothing then happens in the clk but that lines in flight and flights that are over are forgotten (R79). -/
theorem Sw.clkBegin_atRest {s r : Sw} {p : Params} {ao : AlwaysOn} (hst : s.stages p ao = r) (h : r.AtRest) :
    ∃ us fl, s.clkBegin p ao = { r with pipe := { r.pipe with uses := us, flights := fl } } := by
  have hd : r.dropUses.AtRest := { h with }
  generalize hr : r.dropUses = d at hd
  refine ⟨d.pipe.uses, d.pipe.flights.filter fun f => !d.finished f, ?_⟩
  have key : s.clkBegin p ao = d.onPipe fun q => { q with flights := q.flights.filter fun f => !d.finished f } := by
    simp only [Sw.clkBegin, hst, hr, Sw.commitDue_idle hd.wr, Sw.baseAccesses_idle hd.acc, Sw.closesSaid_idle hd.ro,
      Sw.deliverSelf_idle hd.rsp, Sw.walkPump_idle p hd.walk, Sw.pumpSelf_idle p hd.self, ite_self,
      Sw.fillReq_idle p _ hd.reqReg, Sw.cleansDone_idle p hd.cleans, Sw.memWrDone_idle p fun t ht => (hd.txns t ht).1,
      Sw.closeDone_idle fun t ht => (hd.txns t ht).2, Sw.freeReadouts_idle hd.ro, Sw.synReads_idle p _ hd.syn,
      Sw.reads_idle p ao hd.win]
  rw [key, ← hr]
  rfl

/-- The one request in the pipeline comes to RES (R74). -/
theorem Sw.stages_res {s : Sw} {x : Staged} (p : Params) (ao : AlwaysOn) (h : s.pipe.staged = [x]) (ha : x.acc + 7 = s.fr.clk) :
    s.stages p ao = s.res p ao x := by
  have hmap : (x.out.isNone && x.acc + 2 == s.fr.clk) = false := by simp; omega
  simp [Sw.stages, h, hmap, ha]

end Sys2Proof.Machine
end

section
/-! RES of a request to a KIND 0 line while the home is idle, and a read that misses there (R112, R118, R170, R171, R179, R187). -/
namespace Sys2Proof.Machine

/-- The home is idle: no transaction, ticket, tracker entry or write is open, no line is on its way out of the cache, and the store
is free of errors. -/
structure Sw.HomeIdle (s : Sw) : Prop where
  txns : s.home.txns = []
  tickets : s.home.tickets = []
  tracker : s.home.tracker = []
  wr : s.pipe.wr = []
  undo : s.pipe.undo = []
  ev : s.cache.ev = []
  evWait : s.cache.evWait = []
  side : s.cache.side = []
  errs : s.arr.errs = []
  dir : ∀ k, dValid (s.dirAt k) = true
  fatal : s.life.fatal = none

/-- What is noted leaves the home idle. -/
theorem Sw.HomeIdle.noted {s t : Sw} (h : s.HomeIdle) (hn : s.Noted t) : t.HomeIdle := by
  obtain ⟨n, r, p, e, x, rfl⟩ := hn
  exact { h with }

/-! ## Checks of the store -/

/-- A codeword without errors is clean (R378). -/
theorem Arr.check_clean {a : Arr} (h : a.errs = []) (st : Store) (cw : Nat) : a.check st cw = .clean := by
  simp [Arr.check, Arr.symbols, h]

/-- The tag codewords of a set without errors raise nothing (R381). -/
theorem Sw.checkTags_clean {s : Sw} (h : s.arr.errs = []) (set : Nat) : s.checkTags set = s := by
  simp [Sw.checkTags, h]

/-- A directory set without errors whose entries have a form of R167 raises nothing (R198, R381). -/
theorem Sw.checkDir_clean {s : Sw} (h : s.arr.errs = []) (hd : ∀ k, dValid (s.dirAt k) = true) (l : Nat) : s.checkDir l = s := by
  have hcw : ∀ k, s.checkDirCw k = s := fun k => by
    simp [Sw.checkDirCw, Sw.checkDirCode, Arr.check_clean h, hd k]
  exact List.foldlRecOn (motive := (· = s)) _ _ rfl fun _ h k _ => h ▸ hcw k

/-! ## Lookup and ways -/

/-- A line that is nowhere in the slice is a miss (R111, R122). -/
theorem Sw.lookup_miss {s : Sw} {l : Nat} (h : s.findLine l = none) (h1 : s.cache.ev = []) (h2 : s.cache.evWait = [])
    (h3 : s.cache.side = []) : s.lookup l = .miss := by
  simp [Sw.lookup, Sw.findCached, h, Sw.evLine, Sw.evCopies, h1, h2, h3]

/-- Where no transaction and no write holds a way, every way of the mask that is not RETIRED is allowed (R117). -/
theorem Sw.allowed_unheld {s : Sw} (a : Alloc) (set : Nat) (ht : ∀ t ∈ s.home.txns, t.way = none) (hw : s.pipe.wr = []) :
    s.allowed a set = ((waysOf (a.mask &&& s.cache.waySet)).map (locOf set)).filter fun loc => !tRetired (s.tag loc) := by
  have hheld : ∀ loc, s.heldLoc loc = false := fun loc => by
    simp only [Sw.heldLoc, hw, List.any_nil, Bool.or_false, List.any_eq_false]
    intro t h; simp [ht t h]
  simp [Sw.allowed, hheld]

/-- An allowed way is not RETIRED (R117, R397). -/
theorem Sw.allowed_not_retired {s : Sw} {a : Alloc} {set loc : Nat} (h : loc ∈ s.allowed a set) : tRetired (s.tag loc) = false := by
  have := (List.mem_filter.1 h).2
  simp only [Bool.and_eq_true, Bool.not_eq_true'] at this
  exact this.1

/-- An empty allowed way is chosen, and no age moves (R118). -/
theorem Sw.chooseWay_empty {s : Sw} {a : Alloc} {set loc : Nat}
    (h : (s.allowed a set).find? (fun loc => !tValid (s.tag loc)) = some loc) : s.chooseWay a set = (s, some loc) := by
  unfold Sw.chooseWay
  dsimp only
  split
  · next hnil => rw [hnil] at h; cases h
  · simp only [h]

/-- Taking an empty way writes its tag entry, and keeps the old one until the write commits (R119). -/
theorem Sw.install_empty {s : Sw} {loc : Nat} (hv : tValid (s.tag loc) = false) (hu : s.pipe.undo = []) (l seq cls at_ : Nat)
    (dirty : Bool) (age : Nat) (pref : Bool) :
    ∃ u, s.install loc l seq cls at_ dirty age pref = { s with
      pipe := { s.pipe with undo := u }
      arr := s.arr.putTag loc (tagWord (tagOf l) true dirty age (tRetired (s.tag loc)) 0 0 pref) } := by
  have hevict : s.evictAt loc seq cls at_ = s := by simp [Sw.evictAt, hv]
  refine ⟨sput s.pipe.undo loc (clearedTag (s.tag loc)), ?_⟩
  simp [Sw.install, hevict, Sw.keepTag, hu, Sw.setTag, Sw.onArr, Sw.onPipe]

/-! ## The free form of a directory entry -/

/-- The form of a line that no entry tracks records nobody (R167). -/
theorem dBase_untracked (tag : Nat) : dBase (dirPtr tag 0 0 []) = 0 := by
  have h : (tag % 2 ^ 28) >>> 28 = 0 := Nat.shiftRight_eq_zero _ _ (Nat.mod_lt _ (by decide))
  simp [dBase, dirPtr]
  omega

theorem dOwned_untracked (tag : Nat) : dOwned (dirPtr tag 0 0 []) = false := by
  simp [dOwned, dBase_untracked]

theorem dHolders_untracked (agents tag : Nat) (skip : Option Nat) : dHolders agents (dirPtr tag 0 0 []) skip = [] := by
  simp [dHolders, dOwned_untracked, dSharers, dBase_untracked]

/-! ## RES -/

section
variable {s : Sw} (hs : s.HomeIdle)
include hs

/-- Tables of an idle home have nothing to drop when a request passes RES (R190, R193). -/
theorem Sw.untrack_idle (r : Req) (line : Nat) : s.untrack r line = s := by
  have hhome : { s.home with tracker := [], tickets := [] } = s.home := by rw [← hs.tracker, ← hs.tickets]
  simp only [Sw.untrack, Sw.dropTicket, Sw.onHome, hs.tracker, hs.tickets, dropFirst, beq_self_eq_true, if_true, hhome]

/-- RES of a request of an idle home to a line outside every region goes to the home (R441, stages 5 to 7). -/
theorem Sw.resReq_home {p : Params} {ao : AlwaysOn} {x : Staged} {e : ReqEnt} {k : ReqKind} {l : Nat}
    (hl : l = s.map.index (laddrOf e.r.addr)) (hreg : s.regionOf l = none) (hb : ao.blockHolds = []) :
    s.resReq p ao x e k =
      ((s.resHome p e k l x.id x.acc x.alloc).1, if (s.resHome p e k l x.id x.acc x.alloc).2 then .retry else .done) := by
  subst hl
  simp [Sw.resReq, Sw.checkTags_clean hs.errs, hreg, Sw.checkDir_clean hs.errs hs.dir, hs.fatal, AlwaysOn.held, hb]

/-- Checks 1 to 3 of R187 pass for a request that needs no directory way, or has one. -/
theorem Sw.check187_idle {r : Req} {l : Nat} {pl : Plan} (hm : s.lookup l = .miss) (ht : pl.txns ≤ 256)
    (hk : pl.key.isNone = false) : s.check187 r l pl = none := by
  simp [Sw.check187, Sw.otherHead, hs.tickets, Sw.isOpen, hs.txns, Sw.victimOpen, hs.evWait, hm, hk]
  omega

/-- A free index of the transaction table (R42). -/
theorem Sw.freeIdx_idle : s.freeIdx < 256 := by
  obtain ⟨i, hi⟩ := Sw.freeNumber_exists (s := s) (used := fun i => s.home.txns.any fun t => t.idx == i) 2
    (by decide : 0 < 256) (by simp [hs.txns])
  unfold Sw.freeIdx
  rw [hi]
  exact (Sw.freeNumber_unused hi).1

end

/-! ## A read that misses -/

section
variable {s : Sw} {k : ReqKind} (hk : k = .readShared ∨ k = .readUnique)
include hk

/-- A read that misses with a free directory way needs a transaction and that way, and sends no snoop (R171, R182). -/
theorem Sw.plan_readMiss {l key : Nat} (hd : s.findDir l = none) (hf : s.freeDir l = some key) (r : Req) :
    ∃ op, s.plan r k l = ⟨1, true, some key, none, [], op, false, dirPtr (dirTag l) 0 0 []⟩ := by
  rcases hk with rfl | rfl
  · exact ⟨0x31, by simp [Sw.plan, hd, hf, snoopsOf, dOwned_untracked]⟩
  · exact ⟨0x32, by simp [Sw.plan, hd, hf, snoopsOf, dOwned_untracked, dHolders_untracked]⟩

end

/-- Hits and misses at RES are only noted (R429). -/
theorem Sw.noted_countTag (s : Sw) (r : Req) (k : ReqKind) (line : Nat) : s.Noted (s.countTag r k line) := by
  unfold Sw.countTag
  refine .ite (.refl s) ?_
  cases s.lookup line with
  | ev => exact (Sw.noted_count ..).trans (Sw.noted_count ..)
  | side => exact (Sw.noted_count ..).trans (Sw.noted_count ..)
  | _ => exact Sw.noted_count ..

/-- Under prefetch mode 0 no request trains or prefetches (R115, R124). -/
theorem Sw.prefetch_off {s : Sw} {t : Txn} (h : t.alloc.mode = 0) (miss : Bool) : s.prefetch t miss = s := by
  simp [Sw.prefetch, h]

/-- A new transaction with a free directory way: its table entry, and the transient form of its directory entry (R170, R171). -/
theorem Sw.openTxn_newDir {s : Sw} {p : Params} {t : Txn} {pl : Plan} {key : Nat} (he : pl.evict = none) (hk : pl.key = some key)
    (hn : pl.newDir = true) :
    ∃ fl, s.openTxn p t pl = ({ s with
      home := { s.home with txns := s.home.txns ++ [{ t with idx := s.freeIdx, dirKey := some key }] }
      pipe := { s.pipe with flights := fl }
      arr := s.arr.putDir key (BitVec.ofNat 128 (dirTag t.line ||| (4 <<< 28))) }, { t with idx := s.freeIdx, dirKey := some key }) := by
  refine ⟨updFirst (fun x => x.id == t.seq) (fun f => { f with txn := some s.freeIdx }) s.pipe.flights, ?_⟩
  simp only [Sw.openTxn, he, hk, hn, if_true, Sw.onHome, Sw.onFlight, Sw.onPipe, Sw.onArr]

/-- The memory read of a miss is decided with the first empty way (R118, R119, R179). -/
theorem Sw.decideRead_empty {s : Sw} {t : Txn} {loc : Nat} (hn : t.r.noAlloc = false) (hu : s.pipe.undo = [])
    (hw : (s.allowed t.alloc (setOf t.line)).find? (fun loc => !tValid (s.tag loc)) = some loc) :
    ∃ u, s.decideRead t true false = ({ s with
      pipe := { s.pipe with undo := u }
      arr := s.arr.putTag loc (tagWord (tagOf t.line) true false t.age false 0 0 false)
      mp := { s.mp with wait := s.mp.wait ++ [⟨.txn t.idx, t.line, t.r.qos.toNat, if t.r.dlValid then some t.df else none, t.seq, 0,
        t.r.src, t.r.priv⟩] } }, { t with way := some loc, reading := true }) := by
  have hv : tValid (s.tag loc) = false := by simpa using List.find?_some hw
  have hr := Sw.allowed_not_retired (List.mem_of_find?_eq_some hw)
  obtain ⟨u, h⟩ := Sw.install_empty hv hu t.line t.seq t.r.qos.toNat (max (t.acc + 12) s.fr.clk) false t.age false
  rw [hr] at h
  exact ⟨u, by simp [Sw.decideRead, Sw.allocate, hn, Sw.chooseWay_empty hw, h, Sw.memRead, Sw.onMp]⟩

/-- A ReadShared or ReadUnique that misses and sends no snoop waits for memory (R112, R179). -/
theorem Sw.advance_readMiss {s s' : Sw} {p : Params} {t t' : Txn} {k : ReqKind} (hk : k = .readShared ∨ k = .readUnique)
    (ho : kindOf t.r.op = some k) (hkind : t.kind = .req) (hans : t.ownerAns = none) (hfwd : t.fwdData = none)
    (hgot : t.got = none) (hread : t.reading = false) (hm : s.lookup t.line = .miss)
    (hd : s.decideRead t true false = (s', t')) : s.advance p t = s'.putTxn { t' with ph := .mem } := by
  have halloc : (some k != some ReqKind.upgrade) = true := by rcases hk with rfl | rfl <;> rfl
  rcases hk with rfl | rfl <;>
    simp [Sw.advance, hkind, ho, hans, hfwd, hread, Sw.perform, Sw.performRead, hgot, hm, halloc, hd]

/-- The transaction of a request at RES, before it has an entry of the table (R170, R182). -/
def homeTxn (q : ReqEnt) (k : ReqKind) (pl : Plan) (line seq acc : Nat) (al : Alloc) (frame : Nat) : Txn :=
  { Txn.blank 256 seq acc line .req q.r al frame with
    wdat := q.dat, self := q.self, df := q.df, base := pl.base, toSnoop := pl.snoop, snpOp := pl.snpOp, fwdOk := pl.fwdOk
    needAck := k == .readShared || k == .readUnique || k == .upgrade, recalled := !pl.snoop.isEmpty, ph := .snoop }

/-- RES of a request that passes R187 and takes a transaction, without prefetching: it opens the transaction and is performed. -/
theorem Sw.resHome_opens {s v s' : Sw} {p : Params} {q : ReqEnt} {k : ReqKind} {pl : Plan} {t' : Txn} {line seq acc : Nat}
    {al : Alloc} (hpl : s.plan q.r k line = pl) (hc : s.check187 q.r line pl = none)
    (hv : (s.untrack q.r line).countTag q.r k line = v) (hwb : (k == .writeBack) = false) (hec : (k == .evictClean) = false)
    (hn : (pl.txns == 0) = false) (ho : v.openTxn p (homeTxn q k pl line seq acc al v.fr.frameNo) pl = (s', t'))
    (hmode : t'.alloc.mode = 0) : s.resHome p q k line seq acc al = ((s'.resPerform p t').1, false) := by
  dsimp only [homeTxn] at ho
  simp only [Sw.resHome, hpl, hc, hv, hwb, hec, hn, ho, Bool.false_and, Bool.or_false, Bool.false_eq_true, if_false,
    Sw.prefetch_off hmode, ite_self]

/-- A transaction without snoops acts at once (R179). -/
theorem Sw.resPerform_quiet {s : Sw} {p : Params} {t : Txn} (hi : t.idx < 256) (hq : t.quiet = true) :
    (s.resPerform p t).1 = s.advance p t := by
  simp [Sw.resPerform, hi, hq]

/-- Storing the only transaction. -/
theorem Sw.putTxn_single {s : Sw} {t t' : Txn} (h : s.home.txns = [t]) (hi : t.idx = t'.idx) :
    s.putTxn t' = { s with home := { s.home with txns := [t'] } } := by
  simp [Sw.putTxn, Sw.onTxn, Sw.onHome, h, updFirst, hi]

/-- The only transaction, of a read that misses and sends no snoop, takes the first empty way and has its memory read decided. -/
theorem Sw.advance_fills {s : Sw} {p : Params} {t : Txn} {k : ReqKind} {loc : Nat} (hk : k = .readShared ∨ k = .readUnique)
    (ho : kindOf t.r.op = some k) (hkind : t.kind = .req) (hans : t.ownerAns = none) (hfwd : t.fwdData = none)
    (hgot : t.got = none) (hread : t.reading = false) (hm : s.lookup t.line = .miss) (hn : t.r.noAlloc = false)
    (hu : s.pipe.undo = []) (ht : s.home.txns = [t])
    (hw : (s.allowed t.alloc (setOf t.line)).find? (fun loc => !tValid (s.tag loc)) = some loc) :
    ∃ u, s.advance p t = { s with
      home := { s.home with txns := [{ t with way := some loc, reading := true, ph := .mem }] }
      pipe := { s.pipe with undo := u }
      arr := s.arr.putTag loc (tagWord (tagOf t.line) true false t.age false 0 0 false)
      mp := { s.mp with wait := s.mp.wait ++ [⟨.txn t.idx, t.line, t.r.qos.toNat, if t.r.dlValid then some t.df else none, t.seq, 0,
        t.r.src, t.r.priv⟩] } } := by
  obtain ⟨u, hdec⟩ := Sw.decideRead_empty hn hu hw
  refine ⟨u, ?_⟩
  rw [Sw.advance_readMiss hk ho hkind hans hfwd hgot hread hm hdec]
  exact Sw.putTxn_single ht rfl

/-- The transaction of a request of the home that has sent no snoop and not acted yet, with its directory entry. -/
structure Opened (t : Txn) (q : ReqEnt) (k : ReqKind) (l key seq : Nat) (al : Alloc) : Prop where
  idx : t.idx < 256
  kind : t.kind = .req
  req : t.r = q.r
  df : t.df = q.df
  line : t.line = l
  seq : t.seq = seq
  alloc : t.alloc = al
  dirKey : t.dirKey = some key
  await : t.await = []
  way : t.way = none
  needAck : t.needAck = (k == .readShared || k == .readUnique || k == .upgrade)
  ownerAns : t.ownerAns = none
  fwdData : t.fwdData = none
  got : t.got = none
  reading : t.reading = false

section
variable {s : Sw} (hs : s.HomeIdle) {p : Params} {q : ReqEnt} {k : ReqKind} {l key seq acc : Nat} {al : Alloc}
  (hk : k = .readShared ∨ k = .readUnique) (hl : s.findLine l = none) (hmode : al.mode = 0)
include hs hk hl hmode

/-- RES of a ReadShared or ReadUnique that misses with a free directory way opens its transaction, and that one acts at once (R170,
R171, R179); what it counts is noted. -/
theorem Sw.resHome_opensRead (hd : s.findDir l = none) (hf : s.freeDir l = some key) :
    ∃ v fl t, s.Noted v ∧ Opened t q k l key seq al ∧ s.resHome p q k l seq acc al = (Sw.advance { v with
        home := { v.home with txns := [t] }
        pipe := { v.pipe with flights := fl }
        arr := v.arr.putDir key (BitVec.ofNat 128 (dirTag l ||| (4 <<< 28))) } p t, false) := by
  obtain ⟨op, hplan⟩ := Sw.plan_readMiss hk hd hf q.r
  have hmiss : s.lookup l = .miss := Sw.lookup_miss hl hs.ev hs.evWait hs.side
  have hcheck : s.check187 q.r l ⟨1, true, some key, none, [], op, false, dirPtr (dirTag l) 0 0 []⟩ = none :=
    Sw.check187_idle hs hmiss (by decide : 1 ≤ 256) rfl
  have hnote := Sw.noted_countTag s q.r k l
  have hvs := hs.noted hnote
  obtain ⟨fl, hopen⟩ := Sw.openTxn_newDir (s := s.countTag q.r k l) (p := p)
    (t := homeTxn q k ⟨1, true, some key, none, [], op, false, dirPtr (dirTag l) 0 0 []⟩ l seq acc al (s.countTag q.r k l).fr.frameNo)
    (pl := ⟨1, true, some key, none, [], op, false, dirPtr (dirTag l) 0 0 []⟩) rfl rfl rfl
  rw [hvs.txns, List.nil_append] at hopen
  have hres := Sw.resHome_opens hplan hcheck (by rw [Sw.untrack_idle hs]) (by rcases hk with rfl | rfl <;> rfl)
    (by rcases hk with rfl | rfl <;> rfl) rfl hopen hmode
  rw [Sw.resPerform_quiet (Sw.freeIdx_idle hvs) rfl] at hres
  exact ⟨_, fl, _, hnote, ⟨Sw.freeIdx_idle hvs, rfl, rfl, rfl, rfl, rfl, rfl, rfl, rfl, rfl, rfl, rfl, rfl, rfl, rfl⟩, hres⟩

/-- RES of a ReadShared or ReadUnique that misses with an empty way and a free directory way: its transaction, its directory entry,
its way and its memory read (R112, R118, R170, R171, R179); what it counts is noted. -/
theorem Sw.resHome_readMiss {loc : Nat} (hd : s.findDir l = none) (hf : s.freeDir l = some key) (ho : kindOf q.r.op = some k)
    (hn : q.r.noAlloc = false) (hway : (s.allowed al (setOf l)).find? (fun a => !tValid (s.tag a)) = some loc) :
    ∃ v fl u t, s.Noted v ∧ Opened t q k l key seq al ∧ s.resHome p q k l seq acc al = ({ v with
        home := { v.home with txns := [{ t with way := some loc, reading := true, ph := .mem }] }
        pipe := { v.pipe with flights := fl, undo := u }
        arr := (v.arr.putDir key (BitVec.ofNat 128 (dirTag l ||| (4 <<< 28)))).putTag loc
          (tagWord (tagOf l) true false (if q.r.streaming = true then 3 else 1) false 0 0 false)
        mp := { v.mp with wait := v.mp.wait ++ [⟨.txn t.idx, l, q.r.qos.toNat, if q.r.dlValid then some q.df else none, seq, 0,
          q.r.src, q.r.priv⟩] } }, false) := by
  obtain ⟨v, fl, t, hnote, ht, hres⟩ := Sw.resHome_opensRead (p := p) (q := q) (acc := acc) (seq := seq) hs hk hl hmode hd hf
  have hvs := hs.noted hnote
  have hfill : v.findLine l = none ∧ (v.allowed al (setOf l)).find? (fun a => !tValid (v.tag a)) = some loc := by
    obtain ⟨n, r, pm, e, x, rfl⟩ := hnote
    exact ⟨hl, hway⟩
  rw [Sw.allowed_unheld al (setOf l) (by simp [hvs.txns]) hvs.wr] at hfill
  have htag : tagWord (tagOf t.line) true false t.age false 0 0 false
      = tagWord (tagOf l) true false (if q.r.streaming = true then 3 else 1) false 0 0 false := by rw [Txn.age, ht.req, ht.line]
  have hread : (⟨.txn t.idx, t.line, t.r.qos.toNat, if t.r.dlValid then some t.df else none, t.seq, 0, t.r.src, t.r.priv⟩ : MpRead)
      = ⟨.txn t.idx, l, q.r.qos.toNat, if q.r.dlValid then some q.df else none, seq, 0, q.r.src, q.r.priv⟩ := by
    rw [ht.req, ht.line, ht.df, ht.seq]
  obtain ⟨u, hadv⟩ := Sw.advance_fills (p := p) (t := t) (loc := loc) (s := { v with
      home := { v.home with txns := [t] }, pipe := { v.pipe with flights := fl }
      arr := v.arr.putDir key (BitVec.ofNat 128 (dirTag l ||| (4 <<< 28))) })
    hk (by rw [ht.req]; exact ho) ht.kind ht.ownerAns ht.fwdData ht.got ht.reading
    (by rw [ht.line]; exact Sw.lookup_miss hfill.1 hvs.ev hvs.evWait hvs.side) (by rw [ht.req]; exact hn) hvs.undo rfl
    (by
      rw [ht.alloc, ht.line]
      exact (congrArg (List.find? _) (Sw.allowed_unheld al (setOf l) (by simpa using ht.way) (by exact hvs.wr))).trans hfill.2)
  rw [hadv, htag, hread] at hres
  exact ⟨v, fl, u, t, hnote, ht, hres⟩

end

end Sys2Proof.Machine
end

section
/-! The clk in which a read that misses comes through RES (R74, R112, R118, R170, R171, R179). -/
namespace Sys2Proof.Machine

/-- The one request in the pipeline leaves it at RES; what follows its decision is only noted. -/
theorem Sw.res_req {s r : Sw} {p : Params} {ao : AlwaysOn} {x : Staged} {e : ReqEnt} {k : ReqKind} {o : Outc} (hst : s.pipe.staged = [x])
    (hx : x.cand = .req e) (hout : x.out = none) (ho : kindOf e.r.op = some k)
    (hr : ({ s with pipe := { s.pipe with staged := [] } } : Sw).resReq p ao x e k = (r, o)) : r.Noted (s.res p ao x) := by
  have hdrop : (s.onPipe fun q => { q with staged := dropFirst (fun y => y.id == x.id) q.staged })
      = { s with pipe := { s.pipe with staged := [] } } := by simp [Sw.onPipe, hst, dropFirst]
  have : s.res p ao x = (r.outcome x.acc x.cand o).traceAccept x.cand x.gtime o := by
    simp only [Sw.res, hdrop, hout, Sw.resStage, hx, ho, hr]
  exact this ▸ (Sw.noted_outcome ..).trans (Sw.noted_traceAccept ..)

/-- RES of the one request in the pipeline, a ReadShared or ReadUnique that misses (R112, R118, R170, R171, R179). -/
theorem Sw.res_readMiss {s : Sw} (hs : s.HomeIdle) {p : Params} {ao : AlwaysOn} {x : Staged} {e : ReqEnt} {k : ReqKind}
    {l key loc : Nat} (hst : s.pipe.staged = [x]) (hx : x.cand = .req e) (hout : x.out = none) (hb : ao.blockHolds = [])
    (hidx : l = s.map.index (laddrOf e.r.addr)) (hreg : s.regionOf l = none)
    (hk : k = .readShared ∨ k = .readUnique) (ho : kindOf e.r.op = some k) (hn : e.r.noAlloc = false) (hl : s.findLine l = none)
    (hd : s.findDir l = none) (hf : s.freeDir l = some key) (hmode : x.alloc.mode = 0)
    (hway : (s.allowed x.alloc (setOf l)).find? (fun a => !tValid (s.tag a)) = some loc) :
    ∃ v fl u t, s.Noted v ∧ Opened t e k l key x.id x.alloc ∧ s.res p ao x = { v with
        home := { v.home with txns := [{ t with way := some loc, reading := true, ph := .mem }] }
        pipe := { v.pipe with staged := [], flights := fl, undo := u }
        arr := (v.arr.putDir key (BitVec.ofNat 128 (dirTag l ||| (4 <<< 28)))).putTag loc
          (tagWord (tagOf l) true false (if e.r.streaming = true then 3 else 1) false 0 0 false)
        mp := { v.mp with wait := v.mp.wait ++ [⟨.txn t.idx, l, e.r.qos.toNat, if e.r.dlValid then some e.df else none, x.id, 0,
          e.r.src, e.r.priv⟩] } } := by
  have hs' : Sw.HomeIdle { s with pipe := { s.pipe with staged := [] } } := { hs with }
  obtain ⟨v, fl, u, t, ⟨n, r, m, y, z, rfl⟩, ht, hres⟩ := Sw.resHome_readMiss (p := p) (q := e) (seq := x.id) (acc := x.acc)
    hs' hk hl hmode hd hf ho hn hway
  have hreq := Sw.resReq_home hs' (p := p) (ao := ao) (x := x) (e := e) (k := k) hidx hreg hb
  rw [hres] at hreq
  obtain ⟨n', r', m', y', z', hnote⟩ := Sw.res_req hst hx hout ho hreq
  exact ⟨{ s with fr := { s.fr with now := n', report := r' }, pmc := m', evt := y', trc := z' }, fl, u, t,
    ⟨n', r', m', y', z', rfl⟩, ht, hnote⟩

end Sys2Proof.Machine
end

section
/-! SLOT_DECIDE with one request at RES (R74). -/
namespace Sys2Proof
open Machine

/-- SLOT_DECIDE of an empty slot with one request at RES: the region `b` in which the next clk begins is that of before but for the
frame unit, the port, the memory port and what is noted, and its home is idle; where RES leaves nothing waiting for the clk, its
result is that of the command. -/
theorem slotDecide_atRes {s : State} {x : Staged} {e : ReqEnt} {l : Nat} (ha : AtRes s x e l) :
    ∃ f o m u v z, ∃ b : Sw, b = { s.sw with fr := f, port := o, mp := m, pmc := u, evt := v, trc := z }
      ∧ f.clk = s.sw.fr.clk + 1 ∧ f.pos = s.sw.fr.pos + 1 ∧ m.wait = s.sw.mp.wait ∧ b.HomeIdle
      ∧ ∀ r, b.res s.params s.ao x = r → r.AtRest → ∃ us fl, exec .slotDecide s = .next { s with
          ao := { s.ao with counted := [], sclk := s.ao.sclk.edge }
          sw := { r with pipe := { r.pipe with uses := us, flights := fl } } } := by
  obtain ⟨hawake, hq, hfatal, htxns, hchoose, -, -, -, hacc, -, -, -, htick, htrack, herrs, -, -, hundo, hev, hevw, hside, hdir⟩ := ha
  obtain ⟨f, o, m, u, v, z, hslot, hclk, hpos, hwait⟩ := Sw.slot_quiet s.params s.ao hq hfatal hchoose
  obtain ⟨-, -, -, -, -, -, hstaged, -, -, -, hwr, -⟩ := hq
  refine ⟨f, o, m, u, v, z, _, rfl, hclk, hpos, hwait,
    ⟨htxns, htick, htrack, hwr, hundo, hev, hevw, hside, herrs, hdir, hfatal⟩, fun r hres hrest => ?_⟩
  have hstages := Sw.stages_res (s := { s.sw with fr := f, port := o, mp := m, pmc := u, evt := v, trc := z }) s.params s.ao hstaged
    (hacc.trans hclk.symm)
  obtain ⟨us, fl, hbegin⟩ := Sw.clkBegin_atRest (hstages.trans hres) hrest
  refine ⟨us, fl, ?_⟩
  show execSlotDecide s = _
  rw [execSlotDecide, if_pos hawake, State.runAo_awake hawake, hslot]
  dsimp only
  rw [hbegin]

/-- The read that misses at RES (R112, R118, R170, R171, R179). -/
theorem slotDecide_readMiss {s : State} {x : Staged} {e : ReqEnt} {l loc k : Nat} {kd : ReqKind} (ha : AtRes s x e l)
    (hm : MissesInto s x l loc) (hd : s.sw.findDir l = none) (hf : s.sw.freeDir l = some k) (hn : e.r.noAlloc = false)
    (hk : kd = .readShared ∨ kd = .readUnique) (ho : kindOf e.r.op = some kd) :
    ∃ t y r, exec .slotDecide s = .next t ∧ OpensTxn t y e l (some k) ∧ y.ph = .mem ∧ y.way = some loc ∧ y.needAck = true
      ∧ ClkEnds s t { s.sw with
          home := { s.sw.home with txns := [y] }, mp := { s.sw.mp with wait := s.sw.mp.wait ++ [r] }
          arr := (s.sw.arr.putDir k (BitVec.ofNat 128 (dirTag l ||| (4 <<< 28)))).putTag loc
            (tagWord (tagOf l) true false (if e.r.streaming = true then 3 else 1) false 0 0 false) }
      ∧ r.cause = .txn y.idx ∧ r.line = l ∧ r.cls = e.r.qos.toNat ∧ r.kind = 0 ∧ r.src = e.r.src
      ∧ r.df = (if e.r.dlValid = true then some e.df else none)
      ∧ t.sw.pipe.rsp = [] ∧ t.sw.pipe.wr = [] := by
  obtain ⟨hl, hmode, hway⟩ := hm
  obtain ⟨f, o, m, u, v, z, b, hb, hclk, hpos, hwait, hidle, hexec⟩ := slotDecide_atRes ha
  obtain ⟨-, hq, -, -, -, hcand, hout, -, -, hidx, hreg, hholds, -⟩ := ha
  obtain ⟨-, -, -, -, hreqReg, -, hstaged, -, -, hacc, hwr, hrsp, hwin, hsyn, hcleans, -, hself, hro, hwalk, -⟩ := hq
  subst hb
  obtain ⟨w, fl, un, y, ⟨n, rp, pm, ev, tr, rfl⟩, hy, hres⟩ := Sw.res_readMiss (p := s.params) (ao := s.ao) hidle hstaged hcand hout
    hholds hidx hreg hk ho hn hl hd hf hmode hway
  have hrest := hexec _ hres
  obtain ⟨us, fl', ht⟩ := hrest {
    wr := by simp [hwr], acc := by simp [hacc], rsp := by simp [hrsp], win := hwin, syn := hsyn, cleans := hcleans
    txns := by simp, self := hself, ro := hro, reqReg := hreqReg, walk := hwalk }
  refine ⟨_, { y with way := some loc, reading := true, ph := .mem },
    ⟨.txn y.idx, l, e.r.qos.toNat, if e.r.dlValid then some e.df else none, x.id, 0, e.r.src, e.r.priv⟩, ht,
    ⟨hy.idx, hy.kind, hy.req, hy.line, hy.dirKey, hy.await, rfl⟩, rfl, rfl, ?_, ⟨rfl, hclk, hpos, ?_, rfl⟩,
    rfl, rfl, rfl, rfl, rfl, rfl, hrsp, hwr⟩
  · rw [hy.needAck]; rcases hk with rfl | rfl <;> rfl
  · simp only [hwait]

end Sys2Proof
end

section
/-! The read port: the read that MP_READ_ISSUE chooses, and its transfer (R48, R309, R311). -/
namespace Sys2Proof.Machine

/-- The smallest element is one of those given. -/
theorem minBy_mem {α : Type} {key : α → Nat} {l : List α} {a : α} (h : minBy key l = some a) : a ∈ l := by
  induction l with
  | nil => cases h
  | cons b l ih =>
    unfold minBy at h
    cases hm : minBy key l with
    | none => rw [hm] at h; cases h; exact List.mem_cons_self ..
    | some c =>
      rw [hm] at h
      dsimp only at h
      split at h
      · cases h; exact List.mem_cons_self ..
      · exact List.mem_cons_of_mem _ (ih (hm.trans h))

/-- The read chosen is one of those that wait and may be chosen (R49, R311). -/
theorem Sw.chooseRead_mem {s : Sw} {r : MpRead} {ptr : Nat} (h : s.chooseRead = some (r, ptr)) :
    r ∈ s.mp.wait ∧ s.readOk r = true := by
  have hfirst : ∀ {key : MpRead → Nat} {q : MpRead → Bool} {g : MpRead → Nat},
      (minBy key ((s.mp.wait.filter s.readOk).filter q)).map (fun r => (r, g r)) = some (r, ptr) → r ∈ s.mp.wait.filter s.readOk := by
    intro key q g h
    obtain ⟨b, hb, hr⟩ := Option.map_eq_some_iff.1 h
    cases hr
    exact (List.mem_filter.1 (minBy_mem hb)).1
  have hmem : r ∈ s.mp.wait.filter s.readOk := by
    unfold Sw.chooseRead at h
    dsimp only at h
    split at h
    · next b hb =>
      cases h
      exact (List.mem_filter.1 (List.mem_filter.1 (minBy_mem hb)).1).1
    · split at h
      · rw [List.filter_filter] at h; exact hfirst h
      · rw [Option.orElse_eq_or, Option.orElse_eq_or, Option.or_eq_some_iff, Option.or_eq_some_iff] at h
        rcases h with (h | ⟨-, h⟩) | ⟨-, h⟩ <;> exact hfirst h
  exact List.mem_filter.1 hmem

/-- It has no copy in the eviction buffer (R49). -/
theorem Sw.evCopies_of_readOk {s : Sw} {r : MpRead} (h : s.readOk r = true) : s.evCopies r.line = [] :=
  List.isEmpty_iff.1 (Bool.and_eq_true_iff.1 h).1

/-- A free read tag is none of an outstanding read, nor of one that a reset dropped (R48, R411). -/
theorem Sw.readTag_free {s : Sw} {tag : Nat} (h : s.readTag = some tag) :
    tag < 288 ∧ (∀ o ∈ s.mp.out, o.tag ≠ tag) ∧ ∀ o ∈ s.mp.stale, o.1 ≠ tag := by
  obtain ⟨hlt, hused⟩ := Sw.freeNumber_unused h
  simpa [hlt] using hused

/-- The chosen read is presented (R311). -/
theorem Sw.presentRead_chosen {s : Sw} {r : MpRead} {ptr tag : Nat} (hp : s.mp.presented = none) (hb : 128 ≤ s.mp.rb)
    (hc : s.chooseRead = some (r, ptr)) (ht : s.readTag = some tag) :
    ∃ g, s.presentRead = { s with mp := { s.mp with
      wait := dropFirst (fun x => x == r) s.mp.wait, presented := some (tag, r), rdPtr := ptr, rdGranted := g } } := by
  refine ⟨if r.kind == 0 then sset 0 s.mp.rdGranted r.cls (sget 0 s.mp.rdGranted r.cls + 1) else s.mp.rdGranted, ?_⟩
  simp [Sw.presentRead, hp, hc, ht, Nat.not_lt.2 hb, Sw.onMp]

/-- A record of a request changes the trace unit alone (R436). -/
theorem Sw.traceReq_only (s : Sw) (typ : Nat) (w : Who) (c : Nat) : ∃ x, s.traceReq typ w c = { s with trc := x } := by
  unfold Sw.traceReq
  split
  · exact Sw.traceRec_only ..
  · exact ⟨s.trc, rfl⟩

/-- A count and a record of a request change the counters, the event unit and the trace unit alone. -/
theorem Sw.count_traceReq_only (s : Sw) (b c n : Nat) (w : Option Who) (typ : Nat) (w' : Who) (y : Nat) :
    ∃ p e x, (s.count b c n w).traceReq typ w' y = { s with pmc := p, evt := e, trc := x } := by
  obtain ⟨p, e, x, hcount⟩ := Sw.count_only s b c n w
  obtain ⟨x', htrace⟩ := Sw.traceReq_only (s.count b c n w) typ w' y
  exact ⟨p, e, x', by rw [htrace, hcount]⟩

/-- A presented read whose transfer the controller delays is counted (R429). -/
theorem Sw.readIssue_waits {s v : Sw} {tag : Nat} {r : MpRead} (hf : s.life.st ≠ .fenced) (hv : s.presentRead = v)
    (hp : v.mp.presented = some (tag, r)) : ∃ p e x, s.readIssue false = { v with pmc := p, evt := e, trc := x } := by
  obtain ⟨p, e, x, h⟩ := Sw.count_only v 8 5 1 none
  exact ⟨p, e, x, by simp [Sw.readIssue, hf, hv, hp, h]⟩

/-- A presented read transfers when the controller is ready: it is outstanding and driven, and RB pays for it (R48, R309). -/
theorem Sw.readIssue_transfers {s v : Sw} {tag : Nat} {r : MpRead} (hf : s.life.st ≠ .fenced) (hv : s.presentRead = v)
    (hp : v.mp.presented = some (tag, r)) :
    ∃ p e x, s.readIssue true = { v with
      mp := { v.mp with
        presented := none, rdPin := some (tag, v.map.addr r.line), rb := v.mp.rb - 128, out := v.mp.out ++ [⟨tag, r, none⟩] }
      pmc := p, evt := e, trc := x } := by
  simp only [Sw.readIssue, hf, hv, hp, beq_iff_eq, if_false, Bool.not_true, Bool.false_eq_true, Sw.onMp]
  exact Sw.count_traceReq_only ..

end Sys2Proof.Machine
end

section
/-! MP_READ_ISSUE (R48, R49, R309, R311). -/
namespace Sys2Proof
open Machine

/-- What MP_READ_ISSUE does with the read that it chooses. -/
theorem mpReadIssue_chosen {s : State} {r : MpRead} {ptr tag : Nat} (ready : Bool) (ha : s.awake = true)
    (hf : s.sw.life.st ≠ .fenced) (hp : s.sw.mp.presented = none) (hb : 128 ≤ s.sw.mp.rb) (hc : s.sw.chooseRead = some (r, ptr))
    (ht : s.sw.readTag = some tag) :
    ∃ t, exec (.mpReadIssue ready) s = .next t ∧ t.ao = s.ao
      ∧ t.sw.mp.wait = dropFirst (fun x => x == r) s.sw.mp.wait
      ∧ (ready = true → t.sw.mp.out = s.sw.mp.out ++ [⟨tag, r, none⟩] ∧ t.sw.mp.presented = none ∧ t.sw.mp.rb = s.sw.mp.rb - 128
          ∧ t.sw.mp.rdPin = some (tag, s.sw.map.addr r.line))
      ∧ (ready = false → t.sw.mp.out = s.sw.mp.out ∧ t.sw.mp.presented = some (tag, r) ∧ t.sw.mp.rb = s.sw.mp.rb)
      ∧ { t.sw with mp := s.sw.mp, evt := s.sw.evt, pmc := s.sw.pmc, trc := s.sw.trc } = s.sw := by
  obtain ⟨g, hv⟩ := Sw.presentRead_chosen hp hb hc ht
  have hexec : exec (.mpReadIssue ready) s = .next { s with sw := s.sw.readIssue ready } := by
    show execMpReadIssue ready s = _
    rw [execMpReadIssue, State.run_awake ha]
  cases ready with
  | false =>
    obtain ⟨p, e, x, h⟩ := Sw.readIssue_waits hf hv rfl
    rw [h] at hexec
    exact ⟨_, hexec, rfl, rfl, nofun, fun _ => ⟨rfl, rfl, rfl⟩, rfl⟩
  | true =>
    obtain ⟨p, e, x, h⟩ := Sw.readIssue_transfers hf hv rfl
    rw [h] at hexec
    exact ⟨_, hexec, rfl, rfl, fun _ => ⟨rfl, rfl, rfl, rfl⟩, nofun, rfl⟩

end Sys2Proof
end

section
/-! The read port: beats of read data (R48, R50, R83, R143). -/
namespace Sys2Proof.Machine

/-- An event raised is one occurrence of its source, with its INFO (R9, R367). -/
theorem Sw.raise_raised (s : Sw) (id i : Nat) : Raised s (s.raise id i) id (BitVec.ofNat 64 i) := by
  refine ⟨?_, fun _ k hk => Sw.raise_src_ne s id i k hk, ?_⟩
  · rw [Sw.raise_src]
    simp [EvtSrc.occur]
  · obtain ⟨x, h⟩ := Sw.raise_only s id i
    rw [h]
    rfl

/-- A parity error of a port is counted, and shows in the telemetry (R384, R385). -/
theorem Sw.telParity_only (s : Sw) (n : Nat) : ∃ p e x t, s.telParity n = { s with pmc := p, evt := e, trc := x, tel := t } := by
  obtain ⟨p, e, x, h⟩ := Sw.count_only (s.onTel fun t => { t with live := { t.live with parity := t.live.parity + BitVec.ofNat 32 n } })
    9 7 n none
  exact ⟨p, e, x, _, h⟩

/-- What a beat shows of errors: `n` bytes that fail parity, and poison (R50, R385, R429). -/
def Sw.beatErrors (s : Sw) (n : Nat) (bad : Bool) (r : MpRead) : Sw :=
  let s := if n > 0 then s.telParity n else s
  if bad then s.count 8 6 1 (some (s.readWho r)) else s

/-- It is counted, and shows in the telemetry. -/
theorem Sw.beatErrors_only (s : Sw) (n : Nat) (bad : Bool) (r : MpRead) :
    ∃ p e x t, s.beatErrors n bad r = { s with pmc := p, evt := e, trc := x, tel := t } := by
  have hparity : ∃ p e x t, (if n > 0 then s.telParity n else s) = { s with pmc := p, evt := e, trc := x, tel := t } := by
    split
    · exact Sw.telParity_only s n
    · exact ⟨s.pmc, s.evt, s.trc, s.tel, rfl⟩
  obtain ⟨p, e, x, t, hparity⟩ := hparity
  unfold Sw.beatErrors
  dsimp only
  rw [hparity]
  split
  · obtain ⟨p', e', x', hcount⟩ := Sw.count_only { s with pmc := p, evt := e, trc := x, tel := t } 8 6 1 (some (s.readWho r))
    exact ⟨p', e', x', t, hcount⟩
  · exact ⟨p, e, x, t, rfl⟩

section
variable {s : Sw} {p : Params} {tag : Nat} {o : MpOut} {l : List MpOut} (data : BitVec 512) (par : BitVec 64) (poison : BitVec 4)
  (err : Bool)

/-- A beat with a tag that no read uses raises PROTOCOL (R48). -/
theorem Sw.readBeat_unknown (beat : Bool) (h : ∀ o ∈ s.mp.out, o.tag ≠ tag) :
    s.readBeat p tag beat data par poison err = some (s.raise 8 tag) := by
  have : s.mp.out.find? (fun o => o.tag == tag) = none := List.find?_eq_none.2 fun o ho => by simp [h o ho]
  simp only [Sw.readBeat, this]

variable (hout : s.mp.out = o :: l) (ht : o.tag = tag)
include hout ht

/-- It is the outstanding read with the tag of the beat. -/
theorem Sw.find_outstanding : s.mp.out.find? (fun o => o.tag == tag) = some o := by
  simp [hout, ht]

/-- Beat 0 is kept until beat 1 has come (R48, R50). -/
theorem Sw.readBeat_first (h0 : o.beat0 = none) :
    ∃ u e x t, s.readBeat p tag false data par poison err = some { s with
      pmc := u, evt := e, trc := x, tel := t
      mp := { s.mp with out := { o with beat0 := some (data, beatPoison data par poison err) } :: l } } := by
  have hbeat : s.readBeat p tag false data par poison err
      = some ((s.beatErrors (badBytes 64 data.toNat par.toNat).length (err || poison != 0) o.rd).onMp fun m => { m with
          out := updFirst (fun x => x.tag == tag) (fun x => { x with beat0 := some (data, beatPoison data par poison err) }) m.out }) := by
    simp only [Sw.readBeat, Sw.find_outstanding hout ht, h0]
    rfl
  obtain ⟨u, e, x, t, h⟩ := Sw.beatErrors_only s (badBytes 64 data.toNat par.toNat).length (err || poison != 0) o.rd
  exact ⟨u, e, x, t, by rw [hbeat, h]; simp only [Sw.onMp, hout, updFirst, ht, beq_self_eq_true, if_true]⟩

/-- With beat 1 the read is no longer outstanding, and its line reaches its cause (R48, R50, R83). -/
theorem Sw.readBeat_second (h0 : o.beat0 ≠ none) :
    ∃ u e x t ln, s.readBeat p tag true data par poison err = some (Sw.readDone { s with
      pmc := u, evt := e, trc := x, tel := t, mp := { s.mp with out := l } } p o.rd ln) := by
  obtain ⟨⟨d0, p0⟩, h0⟩ := Option.ne_none_iff_exists'.1 h0
  have hbeat : s.readBeat p tag true data par poison err
      = some (Sw.readDone ((s.beatErrors (badBytes 64 data.toNat par.toNat).length (err || poison != 0) o.rd).onMp fun m => { m with
          out := dropFirst (fun x => x.tag == tag) m.out }) p o.rd ⟨data ++ d0, beatPoison data par poison err ++ p0, 0⟩) := by
    simp only [Sw.readBeat, Sw.find_outstanding hout ht, h0]
    rfl
  obtain ⟨u, e, x, t, h⟩ := Sw.beatErrors_only s (badBytes 64 data.toNat par.toNat).length (err || poison != 0) o.rd
  exact ⟨u, e, x, t, ⟨data ++ d0, beatPoison data par poison err ++ p0, 0⟩, by
    rw [hbeat, h]; simp only [Sw.onMp, hout, dropFirst, ht, beq_self_eq_true, if_true]⟩

/-- For a beat out of order the spec gives no effect (R5, R48). -/
theorem Sw.readBeat_disordered {beat : Bool} (h0 : beat = o.beat0.isNone) : s.readBeat p tag beat data par poison err = none := by
  cases h : o.beat0 with
  | none => simp [Sw.readBeat, Sw.find_outstanding hout ht, h0, h]
  | some d => simp [Sw.readBeat, Sw.find_outstanding hout ht, h0, h]

end

/-- The tag entry that a cancelled write puts back is kept in the pipeline. -/
theorem Sw.keepTag_only (s : Sw) (loc : Nat) (w : BitVec 64) : ∃ q, s.keepTag loc w = { s with pipe := q } := by
  unfold Sw.keepTag
  split
  · exact ⟨s.pipe, rfl⟩
  · exact ⟨_, rfl⟩

/-- A line that a bind reads is written with its tag entry; the cache's buffers and the pipeline aside, nothing else changes
(R143). -/
theorem Sw.bindWrite_only (s : Sw) (n : Nat) (g : Region) (l : Nat) (ln : Line) :
    ∃ c q, s.bindWrite n g l ln false = { s with
      cache := c, pipe := q
      arr := s.arr.putTag (g.loc l) (tagWord (tagOf l) true false 0 (tRetired (s.tag (g.loc l))) (g.typ.toNat + 1) n false) } := by
  obtain ⟨q, hkeep⟩ := Sw.keepTag_only (s.freeSide l) (g.loc l) (s.tag (g.loc l))
  unfold Sw.bindWrite
  dsimp only
  rw [hkeep, Bool.false_and]
  exact ⟨_, _, rfl⟩

/-- A dead or fenced slice has no use for a line that it read (R206, R207). -/
theorem Sw.readDone_down {s : Sw} (h : s.domainDown = true) (p : Params) (r : MpRead) (ln : Line) : s.readDone p r ln = s := by
  simp [Sw.readDone, h]

/-- A line that a bind reads goes to its location of the region (R143). -/
theorem Sw.readDone_bind {s : Sw} {r : MpRead} {line n : Nat} {g : Region} (h : s.domainDown = false) (hc : r.cause = .bind line)
    (hr : s.regionOf line = some (n, g)) (p : Params) (ln : Line) : s.readDone p r ln = s.bindWrite n g line ln false := by
  simp [Sw.readDone, h, hc, hr]

end Sys2Proof.Machine
end

section
/-! MP_READ_BEAT (R5, R48, R50, R143, R411), and the statement on memory reads. -/
namespace Sys2Proof
open Machine

section
variable {s : State} {tag : BitVec 9} {beat : Bool} {data : BitVec 512} {par : BitVec 64} {poison : BitVec 4} {err : Bool}

/-- A beat for a read that a reset dropped is discarded (R411). -/
theorem mpReadBeat_stale (h : s.sw.mp.isStale tag.toNat = true) : exec (.mpReadBeat tag beat data par poison err) s
    = .next { s with sw := { s.sw with mp := s.sw.mp.staleBeat tag.toNat } } := by
  show execMpReadBeat tag beat data par poison err s = _
  rw [execMpReadBeat, if_pos h]
  rfl

variable (h : s.sw.mp.isStale tag.toNat = false) (ha : s.awake = true)
include h ha

/-- Any other beat does what the read port makes of it. -/
theorem mpReadBeat_next {v : Sw} (hv : s.sw.readBeat s.params tag.toNat beat data par poison err = some v) :
    exec (.mpReadBeat tag beat data par poison err) s = .next { s with sw := v } := by
  show execMpReadBeat tag beat data par poison err s = _
  simp [execMpReadBeat, h, ha, hv, State.run]

/-- Where the read port has no effect for it, the machine stops (R5). -/
theorem mpReadBeat_fault (hv : s.sw.readBeat s.params tag.toNat beat data par poison err = none) :
    exec (.mpReadBeat tag beat data par poison err) s = .fault .unspecified := by
  show execMpReadBeat tag beat data par poison err s = _
  simp [execMpReadBeat, h, ha, hv]

/-- An unknown tag raises PROTOCOL (R48). -/
theorem mpReadBeat_unknown (ho : ∀ o ∈ s.sw.mp.out, o.tag ≠ tag.toNat) :
    ∃ t, exec (.mpReadBeat tag beat data par poison err) s = .next t ∧ t.ao = s.ao
      ∧ Raised s.sw t.sw 8 (tag.setWidth 64) ∧ { t.sw with evt := s.sw.evt, trc := s.sw.trc } = s.sw := by
  refine ⟨_, mpReadBeat_next h ha (Sw.readBeat_unknown data par poison err beat ho), rfl, ?_, ?_⟩
  · rw [← BitVec.ofNat_toNat]
    exact Sw.raise_raised ..
  · obtain ⟨x, hx⟩ := Sw.raise_only s.sw 8 tag.toNat
    simp only [hx]
    rfl

variable {o : MpOut} {l : List MpOut} (hout : s.sw.mp.out = o :: l) (ht : o.tag = tag.toNat)
include hout ht

/-- Beat 0 is kept (R48, R50). -/
theorem mpReadBeat_first (hbeat : beat = false) (h0 : o.beat0 = none) :
    ∃ t, exec (.mpReadBeat tag beat data par poison err) s = .next t ∧ t.ao = s.ao
      ∧ t.sw.mp = { s.sw.mp with out := { o with beat0 := some (data, beatPoison data par poison err) } :: l }
      ∧ { t.sw with mp := s.sw.mp, evt := s.sw.evt, pmc := s.sw.pmc, trc := s.sw.trc, tel := s.sw.tel } = s.sw := by
  subst hbeat
  obtain ⟨u, e, x, t, hv⟩ := Sw.readBeat_first (p := s.params) data par poison err hout ht h0
  exact ⟨_, mpReadBeat_next h ha hv, rfl, rfl, rfl⟩

/-- Beat 1 completes the read; a line that a bind reads is written (R48, R143). -/
theorem mpReadBeat_second (hbeat : beat = true) (h0 : o.beat0 ≠ none) :
    ∃ t, exec (.mpReadBeat tag beat data par poison err) s = .next t
      ∧ (s.sw.domainDown = true → t.sw.mp = { s.sw.mp with out := l })
      ∧ ∀ line k g, s.sw.domainDown = false → o.rd.cause = .bind line → s.sw.regionOf line = some (k, g) → Arr.wf s.sw.arr →
          t.sw.mp = { s.sw.mp with out := l }
          ∧ t.sw.tag (g.loc line) = tagWord (tagOf line) true false 0 (tRetired (s.sw.tag (g.loc line)))
              (g.typ.toNat + 1) k false := by
  subst hbeat
  obtain ⟨u, e, x, t, ln, hv⟩ := Sw.readBeat_second (p := s.params) data par poison err hout ht h0
  refine ⟨_, mpReadBeat_next h ha hv, fun hd => ?_, fun line k g hd hc hr _ => ?_⟩
  · simp only [Sw.readDone_down (s := { s.sw with pmc := u, evt := e, trc := x, tel := t, mp := { s.sw.mp with out := l } }) hd]
  · have hdone := Sw.readDone_bind (s := { s.sw with pmc := u, evt := e, trc := x, tel := t, mp := { s.sw.mp with out := l } })
      hd hc hr s.params ln
    obtain ⟨c, q, hbind⟩ := Sw.bindWrite_only
      { s.sw with pmc := u, evt := e, trc := x, tel := t, mp := { s.sw.mp with out := l } } k g line ln
    simp only [hdone, hbind]
    exact ⟨trivial, Sw.setTag_tag s.sw _ _⟩

end

/-- Settles O55: RES of a read that misses, the read that MP_READ_ISSUE chooses, and each kind of beat in its turn. -/
theorem memoryReads : Obligations.MemoryReads := by
  unfold Obligations.MemoryReads
  refine ⟨?_, ?_, ?_⟩
  · intro s x e l loc k ha hm hd hf hn ho
    rcases ho with ho | ho
    · exact slotDecide_readMiss ha hm hd hf hn (.inl rfl) ho
    · exact slotDecide_readMiss ha hm hd hf hn (.inr rfl) ho
  · intro s ready r ptr tag ha hf hp hb hc ht
    obtain ⟨hwait, hok⟩ := Sw.chooseRead_mem hc
    obtain ⟨hlt, hout, hstale⟩ := Sw.readTag_free ht
    exact ⟨hwait, hlt, hout, hstale, Sw.evCopies_of_readOk hok, mpReadIssue_chosen ready ha hf hp hb hc ht⟩
  · intro s tag beat data par poison err
    refine ⟨mpReadBeat_stale, fun h ha => ⟨mpReadBeat_unknown h ha, fun o l hout ht => ⟨?_, ?_, ?_⟩⟩⟩
    · exact mpReadBeat_first h ha hout ht
    · exact mpReadBeat_second h ha hout ht
    · exact fun h0 => mpReadBeat_fault h ha (Sw.readBeat_disordered data par poison err hout ht h0)

end Sys2Proof
end
